-- ==== Sys2Proof/Word.lean ====
section
/-! DEFINITION. The words that cross a port or lie in the store, and the index ranges of spec/00 "Index ranges". -/

namespace Sys2Proof

/-- One byte of a frame, a page or the staging buffer. -/
abbrev Byte := BitVec 8

/-- A 2-byte field (R195). -/
abbrev Half := BitVec 16

/-- A 4-byte field (R195). -/
abbrev Wide := BitVec 32

/-- Bells 0 to 23. -/
abbrev BellId := Fin 24

/-- Figure axes 0 to 7. -/
abbrev AxisId := Fin 8

/-- Players 0 to 2, and their fetch channels. -/
abbrev PlayerId := Fin 3

/-- Programmes 1 to 64, held as 0 to 63 (see `ProgId.number`). -/
abbrev ProgId := Fin 64

/-- Calendar entries 0 to 63. -/
abbrev CalId := Fin 64

/-- Season entries 0 to 15. -/
abbrev SeasonId := Fin 16

/-- Motion profiles 0 to 15. -/
abbrev ProfileId := Fin 16

/-- Interlock entries 0 to 15. -/
abbrev InterlockId := Fin 16

/-- Roll slots 0 to 3. -/
abbrev RollId := Fin 4

/-- Programme pages 8 to 511: page p is held at p − 8. -/
abbrev MapIdx := Fin 504

end Sys2Proof
end

