-- ==== Sys2Proof/Config.lean ====
section
/-! DEFINITION. What the spec fixes as numbers (spec/00 "Principal figures") and the free values: constants without a
body for what the spec leaves open. A claim holds whatever a free value is. -/

namespace Sys2Proof.Config

/-- Largest stage time, and largest 48-bit count: 2^48 − 1 (R1). -/
def maxStage : Nat := 281474976710655

/-- Largest value of a 32-bit saturating counter. -/
def max32 : Nat := 4294967295

/-- Stabilisation interval, 16 ms in units of 10 µs (R5). -/
def stabTicks : Nat := 1600

/-- Slew period, 100 ms in units of 10 µs (R12). -/
def slewTicks : Nat := 10000

/-- Clock slew limit in milliseconds (R11). -/
def slewLimit : Int := 2000

/-- Bound of the reported D (R11, R14). -/
def reportLimit : Int := 2000000000

/-- Milliseconds of the hundred years 2000 to 2099 (R7, R24): 36,525 days. -/
def centuryMs : Nat := 36525 * 86400000

/-- The search horizon of the calendar, 366 days in minutes (R27). -/
def horizonMinutes : Nat := 527040

/-- Start queue capacity (R36). -/
def startCapacity : Nat := 8

/-- Strike queue capacity (R79). -/
def strikeCapacity : Nat := 32

/-- Event queue capacity (R191). -/
def eventCapacity : Nat := 16

/-- Loop nesting (R63). -/
def loopDepth : Nat := 4

/-- A channel needs a block at this fill or less, and a block has at most this many records (R66). -/
def blockSize : Nat := 8

/-- A channel asks for an erase suspend at this fill or less (R67). -/
def suspendFill : Nat := 4

/-- A strike may launch this long after its original launch time (R86). -/
def launchGrace : Nat := 5000

/-- Dispatch lookahead, 100 ms, in show milliseconds (R49). -/
def lookaheadMs : Int := 100

/-- Roll issue lookahead in stage ticks (R97). -/
def rollLookahead : Nat := 10000

/-- Contact window after drive end: open and close (R105). -/
def windowOpen : Nat := 100
def windowClose : Nat := 3000

/-- Page erase, page program, store read and blank test, in units of 10 µs (R163, R164, R180). -/
def eraseTicks : Nat := 800
def programTicks : Nat := 300
def readTicks : Nat := 25
def blankTicks : Nat := 75

/-- Clock-hold limit, 25 ms, in units of 10 µs (R188). -/
def holdTicks : Nat := 2500

/-- How many follow-ups `settle` runs at most (log 1). -/
def settleFuel : Nat := 400

/-- How many passes of owed move tests an event makes at most (log 1). -/
def moveFuel : Nat := 40

/-- FREE VALUE (log 7): what the bytes of a field carry when the number is too wide for it (width in bytes, the number). -/
opaque overwide : Nat → Nat → Nat

/-- FREE VALUE (log 6): the bytes of a page whose erase or program a main reset cut short (number of the cut, address). -/
opaque cutByte : Nat → Nat → BitVec 8

/-- FREE VALUE (log 8): hammer time one tick after 2^48 − 1. -/
opaque hammerTimeAfterLast : BitVec 48

/-- FREE VALUE (log 9): whether an erase time remaining that is no whole millisecond is reported rounded up. -/
opaque eraseRoundsUp : Nat → Bool

/-- FREE VALUE (log 10): the 12 bits a calendar page keeps of an unchecked window bound above 4095. -/
opaque packedWindow : Nat → BitVec 12

/-- FREE VALUE (log 11): whether a stored code that names no polarity, level or direction acts as the first listed value. -/
opaque strayIsFirst : BitVec 8 → Bool

/-- FREE VALUE (log 16): the bytes a directory rewrite writes for an EMPTY entry, by offset; the first is never 0x01. -/
opaque emptyEntryByte : Nat → BitVec 8

/-- FREE VALUE (log 16): the bytes 26 to 511 of a written setup page, which nothing reads. -/
opaque setupFill : Nat → BitVec 8

/-- FREE VALUE (log 12): strikes a roll still issues whose stored count is below 2, which no published cue has. -/
opaque shortRoll : Nat → Nat

end Sys2Proof.Config
end

