-- ==== Sys2Proof/Syntax.lean ====
section
/-! DEFINITION. The commands of the block: one constructor of `Instr` for each row of spec/opcode_table.json, with the
payload fields of R196 as they are coded on the wire (R195), or the object an internal event concerns. -/

namespace Sys2Proof

/-- The three masters' ports (spec/00 "The three masters", R183). -/
inductive PortId where
  | venue
  | programme
  | service
deriving DecidableEq, Repr

/-- A digital level of a pin. -/
inductive Level where
  | high
  | low
deriving DecidableEq, Repr

/-- What causes a MAIN_RESET (R5); RESET_PART is a request of its own. -/
inductive ResetCause where
  | powerReturn
  | resetInput
deriving DecidableEq, Repr

/-- The payload of WRITE_CALENDAR after the entry index, in the order of R20 (R30). -/
structure CalendarPayload where
  enabled : Byte
  programme : Byte
  kind : Byte
  hour : Byte
  minute : Byte
  hourlyMinute : Byte
  firstHour : Byte
  lastHour : Byte
  interval : Half
  windowFirst : Half
  windowLast : Half
  weekdays : Byte
  seasons : Half
  priority : Byte
  silent : Byte
deriving DecidableEq, Repr

/-- The payload of WRITE_SEASON after the entry index (R31). -/
structure SeasonPayload where
  enabled : Byte
  startMonth : Byte
  startDay : Byte
  endMonth : Byte
  endDay : Byte
  seasonId : Byte
  rank : Byte
deriving DecidableEq, Repr

/-- The payload of WRITE_PROFILE after the profile number (R125). -/
structure ProfilePayload where
  maxSpeed : Half
  acceleration : Wide
  deceleration : Wide
deriving DecidableEq, Repr

/-- The payload of WRITE_BELL after the bell number (R118). -/
structure BellPayload where
  state : Byte
  driveMin : Half
  driveMax : Half
  recover : Half
  flightInit : Half
  velocityCap : Byte
  outputPolarity : Byte
  contactPolarity : Byte
deriving DecidableEq, Repr

/-- The payload of WRITE_AXIS after the axis (R142), in the order of R122. -/
structure AxisPayload where
  enabled : Byte
  softLow : Half
  softHigh : Half
  home : Half
  homeDirection : Byte
  homeSpeed : Half
  searchTravel : Half
  slipTolerance : Byte
  emergencyDeceleration : Wide
  stepPolarity : Byte
  directionPolarity : Byte
  pinMode : Byte
  pullUp : Byte
  switchActive : Byte
deriving DecidableEq, Repr

/-- The payload of WRITE_INTERLOCK after the entry index (R151), in the order of R145. -/
structure InterlockPayload where
  enabled : Byte
  guarded : Byte
  safeLow : Half
  safeHigh : Half
  condition : Byte
  windowLow : Half
  windowHigh : Half
deriving DecidableEq, Repr

/-- The payload of WRITE_SETUP (R178), in the order of R177. -/
structure SetupPayload where
  venueAddress : Byte
  programmeAddress : Byte
  serviceAddress : Byte
  venueHold : Byte
  programmeHold : Byte
  serviceHold : Byte
  driveSlots : Byte
  slipAllowance : Byte
  holdTimeout : Byte
  freezeLimit : Byte
  autoHome : Byte
  protection : Half
deriving DecidableEq, Repr

/-- The payload of SET_CLOCK (R11): a wall time (R195). -/
structure WallPayload where
  year : Half
  month : Byte
  day : Byte
  hour : Byte
  minute : Byte
  second : Byte
  millisecond : Half
deriving DecidableEq, Repr

/-- The commands. A request names the port it is written to. Where one request code spells several rows of the table,
the first row of its length carries the selector byte as sent (queue, table, form, target kind), so that a selector
naming no row is a command too. -/
inductive Instr where
  /-- GET_STATUS (R189). -/
  | getStatus (port : PortId)
  /-- NEXT_EVENT (R191). -/
  | nextEvent (port : PortId)
  /-- SET_ROUTING (R190). -/
  | setRouting (port : PortId) (mask : Byte)
  /-- READ_CLOCK (R16). -/
  | readClock (port : PortId)
  /-- READ_PLAYER (R62). -/
  | readPlayer (port : PortId) (player : Byte)
  /-- READ_QUEUE naming START, code 0 (R62); any queue byte but 1. -/
  | readQueueStart (port : PortId) (queue : Byte)
  /-- READ_QUEUE naming STRIKE, code 1 (R104). -/
  | readQueueStrike (port : PortId)
  /-- READ_BELL (R104, R121). -/
  | readBell (port : PortId) (bell : Byte)
  /-- READ_AXIS (R144). -/
  | readAxis (port : PortId) (axis : Byte)
  /-- READ_ENTRY of table CALENDAR, code 0 (R35); any table byte but 1 to 4. -/
  | readEntryCalendar (port : PortId) (table index : Byte)
  /-- READ_ENTRY of table SEASON, code 1 (R35). -/
  | readEntrySeason (port : PortId) (index : Byte)
  /-- READ_ENTRY of table PROFILE, code 2 (R125). -/
  | readEntryProfile (port : PortId) (index : Byte)
  /-- READ_ENTRY of table INTERLOCK, code 3 (R151). -/
  | readEntryInterlock (port : PortId) (index : Byte)
  /-- READ_ENTRY of table DIRECTORY, code 4 (R170). -/
  | readEntryDirectory (port : PortId) (programme : Byte)
  /-- READ_STORE of form PAGE, code 0 (R169); any form byte but 1 and 2. -/
  | readStorePage (port : PortId) (form : Byte) (page offset : Half) (length : Byte)
  /-- READ_STORE of form STAGE, code 1 (R169); any form byte but 0 and 2. -/
  | readStoreStage (port : PortId) (form : Byte) (offset : Half) (length : Byte)
  /-- READ_STORE of form MAP, code 2 (R169). -/
  | readStoreMap (port : PortId) (first : Half) (count : Byte)
  /-- READ_COUNTERS (R193). -/
  | readCounters (port : PortId) (group : Byte)
  /-- SET_CLOCK (R11). -/
  | setClock (port : PortId) (time : WallPayload)
  /-- SET_RESTRAINT (R158). -/
  | setRestraint (port : PortId) (ceiling mute : Byte)
  /-- HALT from a port (R154). -/
  | halt (port : PortId)
  /-- RESUME (R154). -/
  | resume (port : PortId)
  /-- START_SHOW (R39). -/
  | startShow (port : PortId) (programme priority : Byte)
  /-- STOP_SHOW (R58). -/
  | stopShow (port : PortId) (player : Byte)
  /-- ERASE_PAGE (R167). -/
  | erasePage (port : PortId) (page : Half)
  /-- CLEAR_STAGE (R166). -/
  | clearStage (port : PortId)
  /-- LOAD_STAGE (R166). -/
  | loadStage (port : PortId) (offset : Half) (data : List Byte)
  /-- WRITE_PAGE (R168). -/
  | writePage (port : PortId) (page : Half)
  /-- PUBLISH (R172). -/
  | publish (port : PortId) (programme : Byte) (first : Half)
  /-- REMOVE (R175). -/
  | remove (port : PortId) (programme : Byte)
  /-- WRITE_CALENDAR (R30). -/
  | writeCalendar (port : PortId) (index : Byte) (entry : CalendarPayload)
  /-- WRITE_SEASON (R31). -/
  | writeSeason (port : PortId) (index : Byte) (entry : SeasonPayload)
  /-- WRITE_PROFILE (R125). -/
  | writeProfile (port : PortId) (index : Byte) (profile : ProfilePayload)
  /-- SAVE_TABLES (R176). -/
  | saveTables (port : PortId)
  /-- ENTER_MANUAL (R155). -/
  | enterManual (port : PortId)
  /-- LEAVE_MANUAL (R155). -/
  | leaveManual (port : PortId)
  /-- FREEZE (R156). -/
  | freeze (port : PortId)
  /-- THAW (R156). -/
  | thaw (port : PortId)
  /-- JOG (R139). -/
  | jog (port : PortId) (axis form : Byte) (target : Half) (profile : Byte)
  /-- STOP_AXIS (R140). -/
  | stopAxis (port : PortId) (axis kind : Byte)
  /-- HOME_AXIS (R141). -/
  | homeAxis (port : PortId) (axis : Byte)
  /-- TEST_STRIKE (R99). -/
  | testStrike (port : PortId) (bell velocity : Byte)
  /-- WRITE_BELL (R118). -/
  | writeBell (port : PortId) (bell : Byte) (config : BellPayload)
  /-- WRITE_AXIS (R142). -/
  | writeAxis (port : PortId) (axis : Byte) (config : AxisPayload)
  /-- WRITE_INTERLOCK (R151). -/
  | writeInterlock (port : PortId) (index : Byte) (entry : InterlockPayload)
  /-- CLEAR_FAULT of target kind BELL, code 0 (R119); any kind byte but 1. -/
  | clearFaultBell (port : PortId) (kind number : Byte)
  /-- CLEAR_FAULT of target kind AXIS, code 1 (R142). -/
  | clearFaultAxis (port : PortId) (number : Byte)
  /-- WRITE_SETUP (R178). -/
  | writeSetup (port : PortId) (setup : SetupPayload)
  /-- RESET_PART (R194). -/
  | resetPart (port : PortId)
  /-- A write that is no well-formed frame (R185, check 1): the bytes the port received. -/
  | badFrame (port : PortId) (frame : List Byte)
  /-- A write with data that arrives while the port is BUSY (R186). -/
  | overrun (port : PortId)
  /-- A read transaction arrives at the port (R187, R188). -/
  | clockHold (port : PortId)
  /-- 25 ms have passed since the port's hold began (R188). -/
  | clockHoldLimit (port : PortId)
  /-- Return of main power, or the RESET input (R5, R19). -/
  | mainReset (cause : ResetCause)
  /-- First power, or loss of the backup supply together with main power (R18). -/
  | backupReset
  /-- The stabilisation interval ends (R5). -/
  | stabilisationEnd
  /-- The blank test of one programme page ends (R180). -/
  | blankTestComplete
  /-- A show tick (R3, R47 to R49). -/
  | showTick
  /-- A motion tick (R3, R128), with the supply rail as it is sampled there, 0 to 511 tenths of a volt (R117). -/
  | motionTick (rail : BitVec 9)
  /-- The wall clock advances into a new minute (R8). -/
  | minuteBoundary
  /-- A slew period ends (R12). -/
  | slewPeriodEnd
  /-- The wall clock advances past 2099 (R9). -/
  | centuryRollover
  /-- Stage time has passed the expiry of a queued start (R38). -/
  | startExpired
  /-- The start queue is walked (R40). -/
  | admissionAttempt
  /-- The slot a WAITING player watches has emptied (R51). -/
  | slotWaitEnd (player : PlayerId)
  /-- The move a player awaits has ended (R52). -/
  | awaitEnd (player : PlayerId)
  /-- The axis of a WAIT_AXIS is at rest (R53). -/
  | waitAxisEnd (player : PlayerId)
  /-- The deadline of a WAIT_AXIS is reached (R53). -/
  | waitTimeout (player : PlayerId)
  /-- A DRAINING player with nothing left to settle is released (R59). -/
  | playerRelease (player : PlayerId)
  /-- A channel in WAITING_STORE re-tests the store (R67). -/
  | storeWaitEnd (player : PlayerId)
  /-- The read arbiter grants (R164). -/
  | readGrant
  /-- The read in flight completes (R164). -/
  | readComplete
  /-- The running erase phase ends (R163). -/
  | erasePhaseEnd
  /-- The running program phase ends (R163). -/
  | programPhaseEnd
  /-- A roll slot issues its next strike (R97). -/
  | rollIssue (slot : RollId)
  /-- Stage time has reached the launch time of a queued strike (R91, R92). -/
  | strikeDue
  /-- Stage time has passed the latest launch of a queued strike (R93). -/
  | lateRemoval
  /-- The drive slot arbiter grants (R108). -/
  | slotGrant
  /-- A drive pulse ends (R110). -/
  | driveEnd (bell : BellId)
  /-- A bell's contact input is sampled at a level (R111, R112). -/
  | contactCapture (bell : BellId) (level : Level)
  /-- A contact window closes (R113). -/
  | miss (bell : BellId)
  /-- A hammer reaches its rest instant (R115). -/
  | hammerRest (bell : BellId)
  /-- Stage time has reached a pending move's due time (R127). -/
  | moveDue (axis : AxisId)
  /-- A ready move that passes the interlock check starts (R127). -/
  | moveStart (axis : AxisId)
  /-- A held move reaches its hold timeout (R149). -/
  | interlockTimeout (axis : AxisId)
  /-- A home-switch input is sampled at a level (R124). -/
  | switchEdge (axis : AxisId) (level : Level)
  /-- A homing has used up its search travel (R133). -/
  | homeNotFound (axis : AxisId)
  /-- The HALT input is sampled (R152). -/
  | haltInput (asserted : Bool)
  /-- The frozen duration has reached the freeze limit (R157). -/
  | freezeExpired
  /-- Main power fails (R17). -/
  | mainPowerLoss
  /-- The RESET input is released (R5). -/
  | resetInputDeasserted
deriving DecidableEq, Repr

/-- The number a programme is called by, 1 to 64. -/
def ProgId.number (p : ProgId) : Nat := p.val + 1

end Sys2Proof
end

