-- ==== Sys2Proof/Machine/State.lean ====
section
/-! DEFINITION. The state of the block as plain data: every piece of state the spec gives it, block by block, and its
values after a backup reset (`State.reset`). INVENTORY.md lists each field with its rule and reset value. -/

namespace Sys2Proof.Machine

/-- A stored enumeration or flag of a table page: a value its list names, or a code that names none (R78, R122: "fields
as stored"). A field written by a request is always `known`. -/
inductive Coded (α : Type) where
  | known (value : α)
  | stray (code : Byte)
deriving DecidableEq, Repr

/-! ### Results, events -/

/-- Result codes, in the order of the table of R185's chapter (R195: OK is 0, NOT_READY is 14). -/
inductive ResultCode where
  | ok | accepted | denied | badFrame | badArg | mode | busy | full | notFound | claimed | unavailable | pinned
  | isProtected | notErased | notReady
deriving DecidableEq, Repr

/-- Event classes, in the order of R183. -/
inductive EventClass where
  | show | calendar | bell | axis | store | time | mode | marker
deriving DecidableEq, Repr

/-- Event kinds, by class in the order of R196. -/
inductive EventKind where
  | showStarted | showEnded | startExpired | startFailed | waitTimeout | scriptFault
  | calendarFired | calendarSkipped | seasonChanged
  | bellFault | supplyRange
  | axisArrived | axisStopped | axisHomed | axisFault | moveDiscarded | moveHeld | interlockTimeout
  | storeDone | versionReclaimed | storeLoaded
  | timeStepped | clockLost
  | modeChanged | freezeStarted | freezeEnded | freezeExpired | restraintChanged
  | marker
deriving DecidableEq, Repr

/-- The subject of an event (R190, R196). -/
inductive Subject where
  | player (n : Nat)
  | bell (n : Nat)
  | axis (n : Nat)
  | page (n : Nat)
  | calendarEntry (n : Nat)
  | seasonEntry (n : Nat)
  | programme (n : Nat)
deriving DecidableEq, Repr

/-- An event record (R190). The wall time is held as its linear millisecond count (R7). -/
structure EventRecord where
  kind : EventKind
  wall : Option Nat
  stage : Nat
  subject : Option Subject
  detail1 : Option Int
  detail2 : Option Int
deriving DecidableEq, Repr

/-! ### Pins -/

/-- The inputs of the part, as last seen (spec/00 "Outside connections"). -/
structure Pins where
  mainPower : Bool
  resetIn : Bool
  haltIn : Bool
  rail : Nat
  contact : Vector Level 24
  switch : Vector Level 8
deriving DecidableEq, Repr

/-! ### Timebase -/

/-- Main oscillator (R5). -/
inductive Oscillator where
  | stabilising
  | running
deriving DecidableEq, Repr

/-- Clock validity (R10). -/
inductive Validity where
  | invalid
  | valid
deriving DecidableEq, Repr

/-- The timebase's main-domain state (R1, R2, R5) with hammer time (R105). `motionPhase`: hammer ticks since the last motion
tick, or since the end of stabilisation (R3). `showTickDue` and `motionTickDue` are the
model's own: a tick has fallen and has not been taken (log 1). -/
structure Time where
  osc : Oscillator
  stabElapsed : Nat
  stageTime : Nat
  frozen : Bool
  freezeStage : Nat
  frozenMs : Nat
  hammerTime : Nat
  motionPhase : Nat
  showTickDue : Bool
  motionTickDue : Bool
deriving DecidableEq, Repr

/-- The backup domain (R17): clock, stamps and restraints. `wallSub` and `boundaryAhead` are the model's own (log 3: 10 µs
units into the current millisecond, and milliseconds of an advance into a new minute that is still to be taken);
`lossToReport` says that a backup reset has not been reported yet (R15). -/
structure Backup where
  wallMs : Nat
  validity : Validity
  slewRemainder : Int
  slewElapsed : Nat
  wallSub : Nat
  boundaryAhead : Nat
  stamps : Vector (Option Nat) 64
  ceiling : Nat
  mute : Bool
  lossToReport : Bool
deriving DecidableEq, Repr

/-! ### Show calendar -/

/-- Kinds of calendar entry (R20); `noKind` is the stored code 3, which names none (R198). -/
inductive CalendarKind where
  | dailyAt | hourly | interval | noKind
deriving DecidableEq, Repr

/-- Silent policy (R20). -/
inductive SilentPolicy where
  | play | skip
deriving DecidableEq, Repr

/-- The definition of a calendar entry (R20): every field but the last-handled stamp. -/
structure CalendarEntry where
  enabled : Bool
  programme : Nat
  kind : CalendarKind
  hour : Nat
  minute : Nat
  hourlyMinute : Nat
  firstHour : Nat
  lastHour : Nat
  interval : Nat
  windowFirst : Nat
  windowLast : Nat
  weekdays : BitVec 8
  seasons : BitVec 16
  priority : Nat
  silent : SilentPolicy
deriving DecidableEq, Repr

/-- A season entry (R22). -/
structure SeasonEntry where
  enabled : Bool
  startMonth : Nat
  startDay : Nat
  endMonth : Nat
  endDay : Nat
  seasonId : Nat
  rank : Nat
deriving DecidableEq, Repr

/-- Reasons of CALENDAR_SKIPPED, in the order of R33. -/
inductive SkipReason where
  | clockInvalid | mode | silent | late | notFound | queueFull
deriving DecidableEq, Repr

/-- The calendar's counters (R34). -/
structure CalendarCounters where
  fired : Nat
  clockInvalid : Nat
  mode : Nat
  silent : Nat
  late : Nat
  notFound : Nat
  queueFull : Nat
deriving DecidableEq, Repr

/-- The show calendar's main-domain state (R20 to R23, R34). -/
structure Calendar where
  entries : Vector CalendarEntry 64
  seasons : Vector SeasonEntry 16
  active : Nat
  activeEntry : Option SeasonId
  counters : CalendarCounters
deriving DecidableEq, Repr

/-! ### Show engine -/

/-- Who placed a start (R36). -/
inductive Source where
  | calendar (entry : CalId)
  | venue
  | service
deriving DecidableEq, Repr

/-- An entry of the start queue (R36). -/
structure StartEntry where
  programme : ProgId
  priority : Nat
  source : Source
  stamp : Option Nat
  arrival : Nat
  expiry : Nat
deriving DecidableEq, Repr

/-- Player states, in the order of R46. -/
inductive PlayerState where
  | idle | priming | running | waiting | draining
deriving DecidableEq, Repr

/-- Why a player is WAITING (R46). -/
inductive WaitReason where
  | slot | await | waitAxis
deriving DecidableEq, Repr

/-- How a show ended (R46). -/
inductive ShowOutcome where
  | completed | stopped | preempted | halted
deriving DecidableEq, Repr

/-- A player's counters (R46). -/
structure PlayerCounters where
  dispatched : Nat
  starved : Nat
  movesSkipped : Nat
  waitTimeouts : Nat
deriving DecidableEq, Repr

/-- A player context (R46). `headDue` is the due time of the head cue, and keeps its last value while the FIFO is empty
(DEDUCED, log 21). `showTime` is its show time at the last show tick (R48); `headStarved` (R56), `awaitDue` and `awaitOver`
(R52: the due time of the awaited move's cue, and that the move has ended) are what those rules make the part remember. -/
structure Player where
  state : PlayerState
  programme : Nat
  version : Nat
  priority : Nat
  source : Nat
  admission : Nat
  start : Nat
  waiting : Nat
  lastDue : Nat
  headDue : Nat
  reason : Option WaitReason
  awaited : Option AxisId
  deadline : Option Nat
  outcome : Option ShowOutcome
  counters : PlayerCounters
  showTime : Nat
  headStarved : Bool
  awaitDue : Option Nat
  awaitOver : Bool
deriving DecidableEq, Repr

/-- The show engine's device-wide counters (R61). -/
structure ShowCounters where
  arrivals : Nat
  refusedFull : Nat
  admitted : Nat
  expired : Nat
  failedNotFound : Nat
  failedHalted : Nat
  preemptions : Nat
  endedCompleted : Nat
  endedStopped : Nat
  endedPreempted : Nat
  endedHalted : Nat
deriving DecidableEq, Repr

/-- The show engine (R36, R44, R46, R61). `queue` is in queue order, head first; `admissions` counts admissions since
main reset. -/
structure Shows where
  queue : List StartEntry
  admissions : Nat
  players : Vector Player 3
  counters : ShowCounters
deriving DecidableEq, Repr

/-! ### Cue fetch channels -/

/-- The play cues of a FIFO (R69, R197), with the fields of their kind as read. LOOP_BEGIN and LOOP_END are no `Cue`: they
never reach a FIFO. -/
inductive Cue where
  | strike (bell velocity : Nat)
  | roll (bell velocity intervalA intervalB count : Nat)
  | move (axis : Nat) (target : Int) (profile await : Nat)
  | waitAxis (axis timeout : Nat)
  | mark (marker : Nat)
  | endShow
deriving DecidableEq, Repr

/-- A cue in a FIFO: its delta, and the cue. -/
structure FifoCue where
  delta : Nat
  cue : Cue
deriving DecidableEq, Repr

/-- Channel states, in the order of R63. -/
inductive ChannelState where
  | idle | fetching | waitingStore | atEnd
deriving DecidableEq, Repr

/-- A channel's block read at the store (R63). -/
inductive ReadState where
  | none | queued | inFlight
deriving DecidableEq, Repr

/-- An entry of a loop stack (R63, R70). -/
structure LoopEntry where
  returnIndex : Nat
  passesLeft : Nat
deriving DecidableEq, Repr

/-- A fetch channel (R63); the loop stack has its newest entry first. `asking`: it asks for an erase suspend (R68). -/
structure Channel where
  state : ChannelState
  admission : Nat
  firstPage : Nat
  pageCount : Nat
  cueCount : Nat
  next : Nat
  loops : List LoopEntry
  fifo : List FifoCue
  read : ReadState
  blocksRead : Nat
  storeWaits : Nat
  asking : Bool
deriving DecidableEq, Repr

/-! ### Strike scheduler and hammer drive -/

/-- Bell states, in the order of R77. -/
inductive BellState where
  | inService | faulted | disabled
deriving DecidableEq, Repr

/-- Output, contact and step polarities (R77, R122). -/
inductive Polarity where
  | activeHigh | activeLow
deriving DecidableEq, Repr

/-- A bell record (R77) with its in-progress guard end (R88). -/
structure Bell where
  state : BellState
  driveMin : Nat
  driveMax : Nat
  recover : Nat
  flightInit : Nat
  flight : Nat
  velocityCap : Nat
  outputPolarity : Coded Polarity
  contactPolarity : Coded Polarity
  misses : Nat
  launched : Nat
  guardEnd : Option Nat
deriving DecidableEq, Repr

/-- A strike entry (R79). `recover` is the recover read at the offer, which R88 and R94 use at the launch. -/
structure StrikeEntry where
  bell : BellId
  velocity : Nat
  drive : Nat
  flight : Nat
  sound : Nat
  launch : Nat
  latest : Nat
  guardEnd : Nat
  recover : Nat
  owner : Option PlayerId
  slot : Option RollId
  number : Nat
deriving DecidableEq, Repr

/-- The two alternating spacings of a roll (R95). -/
inductive RollInterval where
  | a | b
deriving DecidableEq, Repr

/-- An ACTIVE roll slot (R95). -/
structure Roll where
  owner : PlayerId
  bell : BellId
  velocity : Nat
  intervalA : Nat
  intervalB : Nat
  next : RollInterval
  nextSound : Nat
  remaining : Nat
deriving DecidableEq, Repr

/-- The strike counters (R103). -/
structure StrikeCounters where
  enqueued : Nat
  launched : Nat
  muted : Nat
  late : Nat
  flushed : Nat
  refusedCollided : Nat
  refusedFull : Nat
  refusedUnavailable : Nat
  rollsDegraded : Nat
deriving DecidableEq, Repr

/-- The strike scheduler (R77, R79, R95, R103). `queue` is in strike-queue order; `enqueued` enqueue numbers have been
given since main reset. A roll slot that is FREE is `none`. -/
structure Strikes where
  bells : Vector Bell 24
  queue : List StrikeEntry
  enqueued : Nat
  rolls : Vector (Option Roll) 4
  counters : StrikeCounters
deriving DecidableEq, Repr

/-- Hammer state with the timing fields present in it (R105), whose sums may pass 2^48 − 1 (log 8). Drive end is `start + drive`; the window of FLIGHT is drive
end + 100 to drive end + 3000. -/
inductive HammerState where
  | rest
  | driving (start drive slot : Nat)
  | flight (start drive : Nat)
  | recovering (start drive rest : Nat)
deriving DecidableEq, Repr

/-- A hammer record (R105); the last contact is its hammer time and measured flight. -/
structure Hammer where
  state : HammerState
  lastContact : Option (Nat × Nat)
deriving DecidableEq, Repr

/-- The hammer drive's counters (R121). -/
structure HammerCounters where
  contacts : Nat
  misses : Nat
  bellFaults : Nat
  supplyExcursions : Nat
deriving DecidableEq, Repr

/-- The hammer drive (R105, R107, R117). A drive slot that is FREE is `none`. `outputsOn`: page 7 has been delivered, so
the drive, step and direction outputs are driven (R106, R124). -/
structure HammerDrive where
  hammers : Vector Hammer 24
  slots : List (Option BellId)
  uRaw : Nat
  supplyRange : Bool
  outputsOn : Bool
  counters : HammerCounters
deriving DecidableEq, Repr

/-! ### Axis controller -/

/-- A direction of motion (R122). -/
inductive Direction where
  | negative | positive
deriving DecidableEq, Repr

/-- Direction polarities (R122). -/
inductive DirectionPolarity where
  | highPositive | lowPositive
deriving DecidableEq, Repr

/-- Pin modes (R122). -/
inductive PinMode where
  | pushPull | openDrain
deriving DecidableEq, Repr

/-- The configuration of an axis (R122). -/
structure AxisConfig where
  enabled : Bool
  softLow : Int
  softHigh : Int
  home : Int
  homeDirection : Coded Direction
  homeSpeed : Nat
  searchTravel : Nat
  slipTolerance : Nat
  emergencyDeceleration : Nat
  stepPolarity : Coded Polarity
  directionPolarity : Coded DirectionPolarity
  pinMode : Coded PinMode
  pullUp : Coded Bool
  switchActive : Coded Level
deriving DecidableEq, Repr

/-- Axis states, in the order of R123. -/
inductive AxisState where
  | unhomed | homing | idle | moving | stopping | faulted | disabled
deriving DecidableEq, Repr

/-- The last change of speed (R123). -/
inductive SpeedAction where
  | none | accelerate | decelerate
deriving DecidableEq, Repr

/-- A motion profile (R125). -/
structure Profile where
  maxSpeed : Nat
  acceleration : Nat
  deceleration : Nat
deriving DecidableEq, Repr

/-- Who placed a move (R123). -/
inductive MoveOwner where
  | player (p : PlayerId)
  | service
deriving DecidableEq, Repr

/-- Stop kinds (R123). -/
inductive StopKind where
  | controlled | emergency
deriving DecidableEq, Repr

/-- Stop causes, in the order of R123. -/
inductive StopCause where
  | stopAxis | abort | halt | mode | slip
deriving DecidableEq, Repr

/-- Discard reasons, in the order of R126. -/
inductive DiscardReason where
  | abort | halt | mode | stopAxis | unavailable
deriving DecidableEq, Repr

/-- Fault reasons of an axis, in the order of R123. -/
inductive FaultReason where
  | homeNotFound | slip | limit
deriving DecidableEq, Repr

/-- Homing phases (R132). -/
inductive HomingPhase where
  | backoff | search
deriving DecidableEq, Repr

/-- Origin of a homing (R132). -/
inductive HomingOrigin where
  | homeAxis | automatic
deriving DecidableEq, Repr

/-- A homing under way (R123). -/
structure Homing where
  phase : HomingPhase
  travel : Nat
  origin : HomingOrigin
deriving DecidableEq, Repr

/-- The side a passage was entered from (R135). -/
inductive EntrySide where
  | low | high
deriving DecidableEq, Repr

/-- The slip-check record (R135). -/
structure Passage where
  side : EntrySide
  edgeSeen : Bool
deriving DecidableEq, Repr

/-- A stop under way (R123). -/
structure Stop where
  kind : StopKind
  cause : StopCause
deriving DecidableEq, Repr

/-- The move of a pending-move slot (R126); `held` is its hold start stage time. -/
structure PendingMove where
  target : Int
  clamped : Bool
  profile : ProfileId
  due : Nat
  owner : MoveOwner
  held : Option Nat
deriving DecidableEq, Repr

/-- What the last step of a motion tick's burst does (R130, R131). -/
inductive BurstEnd where
  | none | arrive | complete | limit
deriving DecidableEq, Repr

/-- The steps of a motion tick (R129): how many it issues, how many it has issued, the n of R128 step 5 by which they are
spaced (more than it issues when the target, a limit or the search travel cuts the tick short), and what the last one does.
The model's own (log 4). -/
structure Burst where
  total : Nat
  issued : Nat
  spacing : Nat
  ends : BurstEnd
deriving DecidableEq, Repr

/-- A figure axis: its configuration (R122), its runtime record (R123) and its outputs (R124). -/
structure Axis where
  config : AxisConfig
  state : AxisState
  position : Int
  positionValid : Bool
  velocity : Nat
  stepAccumulator : Nat
  speedRemainder : Nat
  lastAction : SpeedAction
  target : Int
  clamped : Bool
  profile : Profile
  owner : MoveOwner
  stop : Option Stop
  homing : Option Homing
  passage : Option Passage
  claim : Option PlayerId
  slot : Option PendingMove
  fault : Option FaultReason
  direction : Direction
  pulse : Bool
  burst : Option Burst
  lastStep : Option (Int × Int)
  slipDue : Bool
deriving DecidableEq, Repr

/-- An interlock entry (R145). -/
structure Interlock where
  enabled : Bool
  guarded : Nat
  safeLow : Int
  safeHigh : Int
  condition : Nat
  windowLow : Int
  windowHigh : Int
deriving DecidableEq, Repr

/-- The axis controller's counters (R144). -/
structure AxisCounters where
  movesStarted : Nat
  arrivals : Nat
  clamped : Nat
  movesDiscarded : Nat
  stops : Nat
  homings : Nat
  homeNotFound : Nat
  slips : Nat
  limitFaults : Nat
deriving DecidableEq, Repr

/-- The axis controller with the profile and interlock tables (R122, R125, R144, R145). -/
structure Axes where
  axes : Vector Axis 8
  profiles : Vector Profile 16
  interlocks : Vector Interlock 16
  counters : AxisCounters
deriving DecidableEq, Repr

/-! ### Stage control -/

/-- Stage modes (R152). -/
inductive StageMode where
  | auto | manual | halted
deriving DecidableEq, Repr

/-- Causes of a change of mode, in the order of R159. -/
inductive ModeCause where
  | enterManual | leaveManual | haltRequest | haltInput | resume
deriving DecidableEq, Repr

/-- Stage control's counters (R160). -/
structure StageCounters where
  halts : Nat
  freezes : Nat
  freezeExpiries : Nat
  movesHeld : Nat
  interlockTimeouts : Nat
deriving DecidableEq, Repr

/-- Stage control (R152, R160) with the start-up homing list (R134), in ascending axis number. -/
structure Stage where
  mode : StageMode
  startup : List AxisId
  counters : StageCounters
deriving DecidableEq, Repr

/-! ### Programme store -/

/-- The non-volatile array. `cells` lists, by rising address, the bytes that are not 0xFF; `written` marks the pages
programmed since their last erase, which are not blank whatever their bytes (R180); `cut` gives the number of the cut that
left a page unreadable (R180, R181); `cuts` counts them. -/
structure Nvm where
  cells : List Host.Cell
  written : Vector Bool 512
  cut : Vector (Option Nat) 512
  cuts : Nat
deriving DecidableEq, Repr

/-- Page-map states (R161). -/
inductive PageState where
  | free | dirty | draft | live | retiring
deriving DecidableEq, Repr

/-- A version record (R170). -/
structure Version where
  version : Nat
  firstPage : Nat
  pageCount : Nat
  cueCount : Nat
  axisMask : BitVec 8
  priority : Nat
  latestStart : Nat
  references : Nat
deriving DecidableEq, Repr

/-- A directory entry (R170): its state is LIVE when it has a live version, else EMPTY. -/
structure DirEntry where
  live : Option Version
  retiring : Option Version
deriving DecidableEq, Repr

/-- The setup values in force (R177). The port addresses and clock-hold options are held by the ports. -/
structure Setup where
  driveSlots : Nat
  slipAllowance : Nat
  holdTimeout : Nat
  freezeLimit : Nat
  autoHome : Bool
  protection : BitVec 16
deriving DecidableEq, Repr

/-- Store operations, in the order of R162. -/
inductive OpKind where
  | erasePage | writePage | publish | remove | saveTables | writeSetup
deriving DecidableEq, Repr

/-- Outcomes of an operation, in the order of R182. -/
inductive OpOutcome where
  | ok | badHeader | sameVersion | notDraft | invalid
deriving DecidableEq, Repr

/-- A programme header, as the fields of a version (R173, R197). -/
structure Header where
  programme : Nat
  version : Version
deriving DecidableEq, Repr

/-- How far a PUBLISH has come (R172): reading and checking (header once read, bytes read, loops open), or rewriting the
directory page with an image. -/
inductive PublishStep where
  | validating (header : Option Header) (bytesRead depth : Nat)
  | rewriting (version : Nat) (image : List Byte)
deriving DecidableEq, Repr

/-- The operation in progress with what it needs to go on (R162, R167 to R178). -/
inductive OpBody where
  | erasePage (page : Nat)
  | writePage (page : Nat)
  | publish (programme : ProgId) (first : Nat) (step : PublishStep)
  | remove (programme : ProgId) (image : List Byte)
  | saveTables (images : List (Nat × List Byte))
  | writeSetup (image : List Byte)
deriving DecidableEq, Repr

/-- The operation in progress and the port that asked for it (R162, R182). -/
structure Operation where
  port : PortId
  body : OpBody
deriving DecidableEq, Repr

/-- The array's activity (R163), times in units of 10 µs. -/
inductive ArrayActivity where
  | idle
  | erasing (left : Nat)
  | suspended (left : Nat)
  | programming (left : Nat)
deriving DecidableEq, Repr

/-- Phases of the array (R162). -/
inductive PhaseKind where
  | erase | program
deriving DecidableEq, Repr

/-- Requesters of the read path (R164). -/
inductive Requester where
  | channel (p : PlayerId)
  | port (p : PortId)
  | store
deriving DecidableEq, Repr

/-- A queued READ_STORE of form PAGE (R164, R169), with the instant it was queued at. -/
structure PortRead where
  instant : Nat
  port : PortId
  page : Nat
  offset : Nat
  length : Nat
deriving DecidableEq, Repr

/-- A read in flight: its requester, its time left in units of 10 µs, and for a port what it reads (R164). -/
structure InFlight where
  who : Requester
  left : Nat
  page : Nat
  offset : Nat
  length : Nat
deriving DecidableEq, Repr

/-- Where the start-up sequence stands (R179, R180): before stabilisation ends, reading a system page (bytes read),
testing a programme page, or ended. -/
inductive LoadStep where
  | notBegun
  | reading (page bytesRead : Nat)
  | testing (page : Nat)
  | done
deriving DecidableEq, Repr

/-- The last operation record (R182). -/
structure LastOp where
  kind : OpKind
  port : PortId
  subject : Option Subject
  outcome : OpOutcome
  value : Nat
deriving DecidableEq, Repr

/-- The store's counters (R182). -/
structure StoreCounters where
  pagesErased : Nat
  pagesProgrammed : Nat
  publishes : Nat
  failedPublishes : Nat
  removes : Nat
  reclaims : Nat
  saves : Nat
  eraseSuspends : Nat
deriving DecidableEq, Repr

/-- The programme store (chapter 9). `ready`: READY, else LOADING. -/
structure Store where
  nvm : Nvm
  ready : Bool
  load : LoadStep
  setupFault : Bool
  dirFault : Bool
  tableFault : Bool
  setup : Setup
  map : Vector PageState 504
  staging : Vector Byte 512
  op : Option Operation
  array : ArrayActivity
  waiting : Option PhaseKind
  path : Option InFlight
  portReads : List PortRead
  ownRead : Bool
  blankLeft : Option Nat
  last : Option LastOp
  dir : Vector DirEntry 64
  counters : StoreCounters
deriving DecidableEq, Repr

/-! ### Command ports -/

/-- Port states (R183). -/
inductive PortState where
  | idle | receiving | busy
deriving DecidableEq, Repr

/-- Response status (R183, R196). -/
inductive ResponseStatus where
  | pending | done
deriving DecidableEq, Repr

/-- A response slot (R183): its length is that of its data. -/
structure Response where
  status : ResponseStatus
  result : ResultCode
  data : List Byte
deriving DecidableEq, Repr

/-- A port's counters (R183). -/
structure PortCounters where
  requests : Nat
  badFrames : Nat
  overruns : Nat
  discarded : Nat
deriving DecidableEq, Repr

/-- A port context (R183). `present`: it acknowledges its address; `hold`: how long the bus clock has been held (R188);
`lastRead`: what the last read transaction was answered with (R187, R188), the model's own. -/
structure Port where
  address : Nat
  clockHold : Bool
  present : Bool
  state : PortState
  request : List Byte
  response : Response
  routing : BitVec 8
  queue : List EventRecord
  lost : Bool
  counters : PortCounters
  hold : Option Nat
  lastRead : List Byte
deriving DecidableEq, Repr

/-! ### The whole state -/

/-- Follow-ups of the event under way, the model's own (log 1): an admission attempt is owed (R40); the held moves (R148)
and the pending moves of some axes (R127) are to be tested before the event ends. -/
structure Todo where
  attempt : Bool
  reeval : Bool
  test : Vector Bool 8
deriving DecidableEq, Repr

/-- The state of the block. -/
structure State where
  pending : List Instr
  pins : Pins
  time : Time
  backup : Backup
  calendar : Calendar
  shows : Shows
  channels : Vector Channel 3
  strikes : Strikes
  hammer : HammerDrive
  axes : Axes
  stage : Stage
  store : Store
  ports : Vector Port 3
  todo : Todo
deriving DecidableEq, Repr

/-- No command of this block stops the machine with a fault: a request that is not carried out is answered with a result
code (R185), and a failure of the part is state and an event. The type is empty, so no step can fault (safe). -/
inductive Fault where
deriving DecidableEq, Repr

/-- Why a command has no meaning in this model. -/
inductive Refusal where
  /-- Raised by `exec`'s arm of a command the model has not reached, with its mnemonic; no arm raises it now (safe). -/
  | notModelled (mnemonic : String)
deriving DecidableEq, Repr

/-! ### Values after reset -/

/-- A calendar entry after main reset (R20), and as a blank page gives it (R32): disabled, all other fields zero. -/
def CalendarEntry.blank : CalendarEntry :=
  { enabled := false, programme := 0, kind := .dailyAt, hour := 0, minute := 0, hourlyMinute := 0, firstHour := 0,
    lastHour := 0, interval := 0, windowFirst := 0, windowLast := 0, weekdays := 0, seasons := 0, priority := 0,
    silent := .play }

/-- A season entry after main reset, and as a blank page gives it: disabled (R22, R32). DESIGN CHOICE (unsafe, log 2): no
rule gives its other fields, which are zero. -/
def SeasonEntry.blank : SeasonEntry :=
  { enabled := false, startMonth := 0, startDay := 0, endMonth := 0, endDay := 0, seasonId := 0, rank := 0 }

/-- A player after main reset (R46). -/
def Player.initial : Player :=
  { state := .idle, programme := 0, version := 0, priority := 0, source := 0, admission := 0, start := 0, waiting := 0,
    lastDue := 0, headDue := 0, reason := none, awaited := none, deadline := none, outcome := none,
    counters := { dispatched := 0, starved := 0, movesSkipped := 0, waitTimeouts := 0 },
    showTime := 0, headStarved := false, awaitDue := none, awaitOver := false }

/-- A fetch channel after main reset (R63). -/
def Channel.initial : Channel :=
  { state := .idle, admission := 0, firstPage := 0, pageCount := 0, cueCount := 0, next := 0, loops := [], fifo := [],
    read := .none, blocksRead := 0, storeWaits := 0, asking := false }

/-- A bell as a blank page 7 gives it (R78), which the model also holds from main reset until page 7 (log 2). -/
def Bell.blank : Bell :=
  { state := .disabled, driveMin := 20, driveMax := 20, recover := 0, flightInit := 100, flight := 100, velocityCap := 1,
    outputPolarity := .known .activeHigh, contactPolarity := .known .activeHigh, misses := 0, launched := 0,
    guardEnd := none }

/-- An axis configuration as a blank page 7 gives it (R122). -/
def AxisConfig.blank : AxisConfig :=
  { enabled := false, softLow := -32768, softHigh := 32767, home := 0, homeDirection := .known .negative, homeSpeed := 1,
    searchTravel := 1, slipTolerance := 0, emergencyDeceleration := 10, stepPolarity := .known .activeHigh,
    directionPolarity := .known .highPositive, pinMode := .known .pushPull, pullUp := .known false,
    switchActive := .known .high }

/-- An axis after main reset (R122, R123). -/
def Axis.initial : Axis :=
  { config := AxisConfig.blank, state := .disabled, position := 0, positionValid := false, velocity := 0,
    stepAccumulator := 0, speedRemainder := 0, lastAction := .none, target := 0, clamped := false,
    profile := { maxSpeed := 0, acceleration := 0, deceleration := 0 }, owner := .player 0, stop := none, homing := none,
    passage := none, claim := none, slot := none, fault := none, direction := .positive, pulse := false, burst := none,
    lastStep := none, slipDue := false }

/-- A motion profile until LOADING delivers page 6, and as a blank page gives it (R125). -/
def Profile.blank : Profile := { maxSpeed := 50, acceleration := 10, deceleration := 10 }

/-- An interlock entry after main reset (R145). -/
def Interlock.blank : Interlock :=
  { enabled := false, guarded := 0, safeLow := 0, safeHigh := 0, condition := 0, windowLow := 0, windowHigh := 0 }

/-- The defaults of the setup record (R177). -/
def Setup.default : Setup :=
  { driveSlots := 4, slipAllowance := 15, holdTimeout := 30, freezeLimit := 10, autoHome := true, protection := 0 }

/-- The array of a part whose pages have never been written (R179): every byte 0xFF. -/
def Nvm.blank : Nvm := { cells := [], written := Vector.replicate 512 false, cut := Vector.replicate 512 none, cuts := 0 }

/-- A port after main reset (R183), with its default address and routing. -/
def Port.initial (address : Nat) (routing : BitVec 8) : Port :=
  { address := address, clockHold := false, present := false, state := .idle, request := [],
    response := { status := .done, result := .ok, data := [] }, routing := routing, queue := [], lost := false,
    counters := { requests := 0, badFrames := 0, overruns := 0, discarded := 0 }, hold := none, lastRead := [] }

/-- The pins at first power (log 2). -/
def Pins.initial : Pins :=
  { mainPower := true, resetIn := false, haltIn := false, rail := 240, contact := Vector.replicate 24 .low,
    switch := Vector.replicate 8 .low }

/-- The timebase after main reset (R19). -/
def Time.initial : Time :=
  { osc := .stabilising, stabElapsed := 0, stageTime := 0, frozen := false, freezeStage := 0, frozenMs := 0,
    hammerTime := 0, motionPhase := 0, showTickDue := false, motionTickDue := false }

/-- The backup domain after backup reset (R18). -/
def Backup.initial : Backup :=
  { wallMs := 0, validity := .invalid, slewRemainder := 0, slewElapsed := 0, wallSub := 0, boundaryAhead := 0,
    stamps := Vector.replicate 64 none, ceiling := 127, mute := false, lossToReport := true }

/-- The calendar after main reset (R20, R22, R23, R34). -/
def Calendar.initial : Calendar :=
  { entries := Vector.replicate 64 CalendarEntry.blank, seasons := Vector.replicate 16 SeasonEntry.blank, active := 0,
    activeEntry := none,
    counters := { fired := 0, clockInvalid := 0, mode := 0, silent := 0, late := 0, notFound := 0, queueFull := 0 } }

/-- The show engine after main reset (R36, R46, R61). -/
def Shows.initial : Shows :=
  { queue := [], admissions := 0, players := Vector.replicate 3 Player.initial,
    counters := { arrivals := 0, refusedFull := 0, admitted := 0, expired := 0, failedNotFound := 0, failedHalted := 0,
                  preemptions := 0, endedCompleted := 0, endedStopped := 0, endedPreempted := 0, endedHalted := 0 } }

/-- The strike scheduler after main reset (R78, R79, R95, R103). -/
def Strikes.initial : Strikes :=
  { bells := Vector.replicate 24 Bell.blank, queue := [], enqueued := 0, rolls := Vector.replicate 4 none,
    counters := { enqueued := 0, launched := 0, muted := 0, late := 0, flushed := 0, refusedCollided := 0,
                  refusedFull := 0, refusedUnavailable := 0, rollsDegraded := 0 } }

/-- The hammer drive after main reset (R105, R107, R117, R121). -/
def HammerDrive.initial : HammerDrive :=
  { hammers := Vector.replicate 24 { state := .rest, lastContact := none }, slots := [], uRaw := 240,
    supplyRange := false, outputsOn := false,
    counters := { contacts := 0, misses := 0, bellFaults := 0, supplyExcursions := 0 } }

/-- The axis controller after main reset (R122, R123, R125, R144, R145). -/
def Axes.initial : Axes :=
  { axes := Vector.replicate 8 Axis.initial, profiles := Vector.replicate 16 Profile.blank,
    interlocks := Vector.replicate 16 Interlock.blank,
    counters := { movesStarted := 0, arrivals := 0, clamped := 0, movesDiscarded := 0, stops := 0, homings := 0,
                  homeNotFound := 0, slips := 0, limitFaults := 0 } }

/-- Stage control after main reset with the HALT input deasserted (R152, R160). -/
def Stage.initial : Stage :=
  { mode := .auto, startup := [],
    counters := { halts := 0, freezes := 0, freezeExpiries := 0, movesHeld := 0, interlockTimeouts := 0 } }

/-- The store after main reset (R161, R162, R166, R170, R182), over a given array. DESIGN CHOICE (unsafe, log 35): the fault
flags, which stay as set through a main reset (`Store.afterReset`, R180), are clear at first power, before any LOADING. -/
def Store.initial (nvm : Nvm) : Store :=
  { nvm := nvm, ready := false, load := .notBegun, setupFault := false, dirFault := false, tableFault := false,
    setup := Setup.default, map := Vector.replicate 504 .dirty, staging := Vector.replicate 512 0xFF#8, op := none,
    array := .idle, waiting := none, path := none, portReads := [], ownRead := false, blankLeft := none, last := none,
    dir := Vector.replicate 64 { live := none, retiring := none },
    counters := { pagesErased := 0, pagesProgrammed := 0, publishes := 0, failedPublishes := 0, removes := 0,
                  reclaims := 0, saves := 0, eraseSuspends := 0 } }

/-- The ports after main reset (R183): default routing masks SHOW CALENDAR TIME MODE, STORE, and BELL AXIS MODE MARKER. -/
def initialPorts : Vector Port 3 :=
  #v[Port.initial 0x30 0x63#8, Port.initial 0x31 0x10#8, Port.initial 0x32 0xCC#8]

/-- No follow-up. -/
def Todo.none : Todo := { attempt := false, reeval := false, test := Vector.replicate 8 false }

/-- The part right after first power: a backup reset with its main reset (R18, R19), on a part whose store has never been
written (R179), and an empty command queue. -/
def State.reset : State :=
  { pending := [], pins := Pins.initial, time := Time.initial, backup := Backup.initial, calendar := Calendar.initial,
    shows := Shows.initial, channels := Vector.replicate 3 Channel.initial, strikes := Strikes.initial,
    hammer := HammerDrive.initial, axes := Axes.initial, stage := Stage.initial, store := Store.initial Nvm.blank,
    ports := initialPorts, todo := Todo.none }

end Sys2Proof.Machine
end

