-- ==== Sys2Proof/Machine/Ops.lean ====
section
/-! DEFINITION. The named operations over the state: access to the tables, saturating counters, event reports, responses,
the non-volatile array and the page map. -/

namespace Sys2Proof

/-- A port's place in the port table: venue, programme, service (R164, R195). -/
def PortId.idx : PortId → Fin 3
  | .venue => 0
  | .programme => 1
  | .service => 2

end Sys2Proof

namespace Sys2Proof.Machine

/-! ### Counters -/

/-- A 32-bit saturating count rises by one (spec/00 "Arithmetic"). -/
def sat32 (n : Nat) : Nat := if n < Config.max32 then n + 1 else n

/-- A 48-bit saturating count rises by one. -/
def sat48 (n : Nat) : Nat := if n < Config.maxStage then n + 1 else n

/-! ### Blocks and tables -/

namespace State

def modTime (s : State) (f : Time → Time) : State := { s with time := f s.time }
def modBackup (s : State) (f : Backup → Backup) : State := { s with backup := f s.backup }
def modCalendar (s : State) (f : Calendar → Calendar) : State := { s with calendar := f s.calendar }
def modShows (s : State) (f : Shows → Shows) : State := { s with shows := f s.shows }
def modStrikes (s : State) (f : Strikes → Strikes) : State := { s with strikes := f s.strikes }
def modHammerDrive (s : State) (f : HammerDrive → HammerDrive) : State := { s with hammer := f s.hammer }
def modAxes (s : State) (f : Axes → Axes) : State := { s with axes := f s.axes }
def modStage (s : State) (f : Stage → Stage) : State := { s with stage := f s.stage }
def modStore (s : State) (f : Store → Store) : State := { s with store := f s.store }
def modTodo (s : State) (f : Todo → Todo) : State := { s with todo := f s.todo }

/-- A port's context. -/
def port (s : State) (p : PortId) : Port := s.ports[p.idx]
def modPort (s : State) (p : PortId) (f : Port → Port) : State := { s with ports := s.ports.set p.idx (f s.ports[p.idx]) }

/-- A player's context. -/
def player (s : State) (p : PlayerId) : Player := s.shows.players[p]
def modPlayer (s : State) (p : PlayerId) (f : Player → Player) : State :=
  s.modShows fun b => { b with players := b.players.set p (f b.players[p]) }

/-- A player's fetch channel. -/
def channel (s : State) (p : PlayerId) : Channel := s.channels[p]
def modChannel (s : State) (p : PlayerId) (f : Channel → Channel) : State :=
  { s with channels := s.channels.set p (f s.channels[p]) }

/-- A bell record. -/
def bell (s : State) (b : BellId) : Bell := s.strikes.bells[b]
def modBell (s : State) (b : BellId) (f : Bell → Bell) : State :=
  s.modStrikes fun k => { k with bells := k.bells.set b (f k.bells[b]) }

/-- A roll slot; FREE is `none`. -/
def roll (s : State) (r : RollId) : Option Roll := s.strikes.rolls[r]
def setRoll (s : State) (r : RollId) (x : Option Roll) : State :=
  s.modStrikes fun k => { k with rolls := k.rolls.set r x }

/-- A hammer record. -/
def hammerOf (s : State) (b : BellId) : Hammer := s.hammer.hammers[b]
def modHammer (s : State) (b : BellId) (f : Hammer → Hammer) : State :=
  s.modHammerDrive fun h => { h with hammers := h.hammers.set b (f h.hammers[b]) }

/-- An axis. -/
def axis (s : State) (a : AxisId) : Axis := s.axes.axes[a]
def modAxis (s : State) (a : AxisId) (f : Axis → Axis) : State :=
  s.modAxes fun x => { x with axes := x.axes.set a (f x.axes[a]) }

/-- A directory entry. -/
def dirEntry (s : State) (p : ProgId) : DirEntry := s.store.dir[p]
def modDir (s : State) (p : ProgId) (f : DirEntry → DirEntry) : State :=
  s.modStore fun t => { t with dir := t.dir.set p (f t.dir[p]) }

def countCalendar (s : State) (f : CalendarCounters → CalendarCounters) : State :=
  s.modCalendar fun b => { b with counters := f b.counters }
def countShow (s : State) (f : ShowCounters → ShowCounters) : State :=
  s.modShows fun b => { b with counters := f b.counters }
def countStrike (s : State) (f : StrikeCounters → StrikeCounters) : State :=
  s.modStrikes fun b => { b with counters := f b.counters }
def countHammer (s : State) (f : HammerCounters → HammerCounters) : State :=
  s.modHammerDrive fun b => { b with counters := f b.counters }
def countAxis (s : State) (f : AxisCounters → AxisCounters) : State :=
  s.modAxes fun b => { b with counters := f b.counters }
def countStage (s : State) (f : StageCounters → StageCounters) : State :=
  s.modStage fun b => { b with counters := f b.counters }
def countStore (s : State) (f : StoreCounters → StoreCounters) : State :=
  s.modStore fun b => { b with counters := f b.counters }

/-- An admission attempt is owed (R40). -/
def oweAttempt (s : State) : State := s.modTodo fun t => { t with attempt := true }

/-- The held moves are to be tested before the event ends (R148). -/
def oweReeval (s : State) : State := s.modTodo fun t => { t with reeval := true }

/-- The pending move of an axis is to be tested before the event ends (R127). -/
def oweTest (s : State) (a : AxisId) : State := s.modTodo fun t => { t with test := t.test.set a true }

end State

/-! ### Index lists, in ascending order -/

def allPlayers : List PlayerId := [0, 1, 2]
def allAxes : List AxisId := [0, 1, 2, 3, 4, 5, 6, 7]
def allRolls : List RollId := [0, 1, 2, 3]
def allPorts : List PortId := [.venue, .programme, .service]
def allBells : List BellId :=
  [0, 1, 2, 3, 4, 5, 6, 7, 8, 9, 10, 11, 12, 13, 14, 15, 16, 17, 18, 19, 20, 21, 22, 23]
def allInterlocks : List InterlockId := [0, 1, 2, 3, 4, 5, 6, 7, 8, 9, 10, 11, 12, 13, 14, 15]
def allProfiles : List ProfileId := [0, 1, 2, 3, 4, 5, 6, 7, 8, 9, 10, 11, 12, 13, 14, 15]
def allSeasons : List SeasonId := [0, 1, 2, 3, 4, 5, 6, 7, 8, 9, 10, 11, 12, 13, 14, 15]
def allProgs : List ProgId := (List.range 64).filterMap fun k => if h : k < 64 then some ⟨k, h⟩ else none
def allCals : List CalId := (List.range 64).filterMap fun k => if h : k < 64 then some ⟨k, h⟩ else none

/-- The object a number names, when it is in range. -/
def finId? (n : Nat) (k : Nat) : Option (Fin n) := if h : k < n then some ⟨k, h⟩ else none

/-- The programme a number 1 to 64 names. -/
def progId? (k : Nat) : Option ProgId := if k = 0 then none else finId? 64 (k - 1)

/-! ### Events (R190, R191) -/

/-- The class of an event kind (R196). -/
def EventKind.class : EventKind → EventClass
  | .showStarted | .showEnded | .startExpired | .startFailed | .waitTimeout | .scriptFault => .show
  | .calendarFired | .calendarSkipped | .seasonChanged => .calendar
  | .bellFault | .supplyRange => .bell
  | .axisArrived | .axisStopped | .axisHomed | .axisFault | .moveDiscarded | .moveHeld | .interlockTimeout => .axis
  | .storeDone | .versionReclaimed | .storeLoaded => .store
  | .timeStepped | .clockLost => .time
  | .modeChanged | .freezeStarted | .freezeEnded | .freezeExpired | .restraintChanged => .mode
  | .marker => .marker

/-- The number of a class, which is its bit in a routing mask (R195, R196). -/
def EventClass.code : EventClass → Nat
  | .show => 0 | .calendar => 1 | .bell => 2 | .axis => 3 | .store => 4 | .time => 5 | .mode => 6 | .marker => 7

/-- A record appended to a port's queue, or discarded at a full one (R191). -/
def Port.append (p : Port) (r : EventRecord) : Port :=
  if p.queue.length < Config.eventCapacity then { p with queue := p.queue ++ [r] }
  else { p with lost := true, counters := { p.counters with discarded := sat32 p.counters.discarded } }

/-- A record offered to a port: appended when the port's routing includes its class (R190). -/
def Port.offer (p : Port) (r : EventRecord) : Port :=
  if p.routing.getLsbD r.kind.class.code then p.append r else p

/-- The record an event takes at its raising (R190): the wall time only while the clock is VALID. -/
def State.record (s : State) (kind : EventKind) (subject : Option Subject) (d1 d2 : Option Int) : EventRecord :=
  { kind := kind, wall := if s.backup.validity = .valid then some s.backup.wallMs else none, stage := s.time.stageTime,
    subject := subject, detail1 := d1, detail2 := d2 }

/-- An event is raised: its record goes to every port whose routing includes its class (R190). -/
def State.report (s : State) (kind : EventKind) (subject : Option Subject := none) (d1 : Option Int := none)
    (d2 : Option Int := none) : State :=
  let r := s.record kind subject d1 d2
  ((s.modPort .venue (·.offer r)).modPort .programme (·.offer r)).modPort .service (·.offer r)

/-! ### Responses (R185, R187) -/

/-- The response slot is written DONE, and the port stays or becomes IDLE (R185). -/
def State.respond (s : State) (p : PortId) (result : ResultCode) (data : List Byte := []) : State :=
  s.modPort p fun c => { c with response := { status := .done, result := result, data := data }, state := .idle }

/-! ### The non-volatile array (R161, R179 to R181) -/

/-- Reads one byte: free on a cut page, else as listed, else 0xFF (erased). -/
def Nvm.byte (n : Nvm) (a : Nat) : Byte :=
  match (if h : a / 512 < 512 then n.cut[a / 512] else none) with
  | some k => Config.cutByte k a
  | none =>
    match n.cells.find? (fun c => c.1 == a) with
    | some c => c.2
    | none => 0xFF#8

/-- The bytes from an address on. -/
def Nvm.bytes (n : Nvm) (a len : Nat) : List Byte := (List.range len).map fun i => n.byte (a + i)

/-- The bytes of a page. -/
def Nvm.page (n : Nvm) (p : Nat) : List Byte := n.bytes (512 * p) 512

/-- A page is blank: every byte is 0xFF, nothing was programmed into it since its erase, and it passes at erase-verify
margin (R180). -/
def Nvm.isBlank (n : Nvm) (p : Nat) : Bool :=
  (if h : p < 512 then n.cut[p] == none && !n.written[p] else false) && n.cells.all fun c => c.1 / 512 != p

/-- The listed cells of a run of bytes: those that are not 0xFF. -/
def cellsFrom : Nat → List Byte → List Host.Cell
  | _, [] => []
  | a, b :: bs => if b = 0xFF#8 then cellsFrom (a + 1) bs else (a, b) :: cellsFrom (a + 1) bs

/-- A page is erased: every byte becomes 0xFF and the page reads again. -/
def Nvm.erasePage (n : Nvm) (p : Nat) : Nvm :=
  { n with cells := n.cells.filter (fun c => c.1 / 512 != p),
           written := if h : p < 512 then n.written.set p false else n.written,
           cut := if h : p < 512 then n.cut.set p none else n.cut }

/-- A page of the array is programmed with an image of at most 512 bytes. -/
def Nvm.programPage (n : Nvm) (p : Nat) (image : List Byte) : Nvm :=
  if h : p < 512 then
    { n with written := n.written.set p true
             cells := n.cells.filter (fun c => c.1 < 512 * p) ++ cellsFrom (512 * p) (image.take 512)
                      ++ n.cells.filter (fun c => 512 * (p + 1) ≤ c.1) }
  else n

/-- A page's erase or program is cut short by a main reset (R180, R181): its bytes are free until it is erased again. -/
def Nvm.cutPage (n : Nvm) (p : Nat) : Nvm :=
  { n with cut := if h : p < 512 then n.cut.set p (some n.cuts) else n.cut, cuts := n.cuts + 1 }

/-- The canonical form of a list of cells: addresses strictly rising, no 0xFF listed, all inside the store. -/
def Memory.wf (cells : List Host.Cell) : Bool :=
  cells.Pairwise (fun a b => a.1 < b.1) ∧ cells.all fun c => c.2 != 0xFF#8 && decide (c.1 < 262144)

/-! ### The page map (R161) -/

/-- The state of a programme page; `none` for a system page or no page. -/
def State.pageState (s : State) (p : Nat) : Option PageState :=
  if h : 8 ≤ p ∧ p < 512 then some (s.store.map[p - 8]'(by omega)) else none

/-- Sets the state of a programme page; system pages have none. -/
def State.setPage (s : State) (p : Nat) (x : PageState) : State :=
  if h : 8 ≤ p ∧ p < 512 then s.modStore fun t => { t with map := t.map.set (p - 8) x (by omega) } else s

/-- Sets the state of each page of a list. -/
def State.setPages (s : State) (ps : List Nat) (x : PageState) : State := ps.foldl (fun s p => s.setPage p x) s

/-- The pages of a version (R170). -/
def Version.pages (v : Version) : List Nat := (List.range v.pageCount).map (v.firstPage + ·)

/-- The page count of a script of a given cue count: ceil((32 + 8 × cue count) / 512) (R170). -/
def pagesOfCues (cues : Nat) : Nat := (32 + 8 * cues + 511) / 512

/-- The live version of a programme, if its entry is LIVE (R170). -/
def State.live? (s : State) (p : ProgId) : Option Version := (s.dirEntry p).live

end Sys2Proof.Machine
end

