-- ==== Sys2Proof/Machine/Flags.lean ====
section
/-! DEFINITION. Conditions and levels the state implies: the attention lines, the levels of the drive outputs, and
the tests of readiness that several rules share. The levels of an axis's outputs stand in Machine/Axis.lean. -/

namespace Sys2Proof.Machine

/-- The oscillator runs and main power is present: ticks fall and the ports answer (R3, R5). -/
def State.running (s : State) : Bool := s.time.osc == .running && s.pins.mainPower

/-- A port's attention line is asserted while its event queue holds an event, from the end of stabilisation (R192). -/
def State.attention (s : State) (p : PortId) : Bool := s.running && !(s.port p).queue.isEmpty

/-- The level a port's attention line drives: low while asserted; `none` while the open-drain output is released (R192). -/
def State.attentionOutput (s : State) (p : PortId) : Option Level := if s.attention p then some .low else none

/-- The level of an output at its active or inactive level. -/
def outputLevel (p : Polarity) (active : Bool) : Level :=
  match p, active with
  | .activeHigh, true => .high
  | .activeHigh, false => .low
  | .activeLow, true => .low
  | .activeLow, false => .high

def Level.isHigh : Level → Bool
  | .high => true
  | .low => false

/-- A bell's hammer is REST (R105). -/
def State.atRest (s : State) (b : BellId) : Bool :=
  match (s.hammerOf b).state with
  | .rest => true
  | _ => false

/-- A bell's hammer is DRIVING (R105). -/
def State.driving (s : State) (b : BellId) : Bool :=
  match (s.hammerOf b).state with
  | .driving _ _ _ => true
  | _ => false

/-- The polarity an output acts by. -/
def Coded.polarity (c : Coded Polarity) : Polarity :=
  match c with
  | .known p => p
  | .stray b => if Config.strayIsFirst b then .activeHigh else .activeLow

/-- The level of a bell's drive output; `none` while it is undriven (R106). -/
def State.driveOutput (s : State) (b : BellId) : Option Level :=
  if s.hammer.outputsOn then some (outputLevel (s.bell b).outputPolarity.polarity (s.driving b)) else none

/-- The contact input stands at its active level (R111). -/
def contactActive (p : Polarity) (l : Level) : Bool :=
  match p, l with
  | .activeHigh, .high | .activeLow, .low => true
  | _, _ => false

/-- A strike is due: stage time has reached its launch time (R1, R91). -/
def State.strikeIsDue (s : State) (e : StrikeEntry) : Bool := e.launch ≤ s.time.stageTime

/-- A queued strike is a launch candidate (R91). -/
def State.candidate (s : State) (e : StrikeEntry) : Bool :=
  s.strikeIsDue e && s.time.stageTime ≤ e.latest && !s.time.frozen && !s.backup.mute && s.atRest e.bell

/-- The lowest-numbered FREE drive slot (R108). -/
def firstFree : List (Option BellId) → Nat → Option Nat
  | [], _ => none
  | none :: _, k => some k
  | some _ :: xs, k => firstFree xs (k + 1)

end Sys2Proof.Machine
end

