-- ==== Sys2Proof/Machine/Wall.lean ====
section
/-! DEFINITION. Wall time (R7): the linear millisecond count, its fields, dates and weekdays, and the season of a date
(R22, R23). -/

namespace Sys2Proof.Machine

/-- A date of the years 2000 to 2099. -/
structure Date where
  year : Nat
  month : Nat
  day : Nat
deriving DecidableEq, Repr

/-- A wall time by its fields (R7). -/
structure WallTime where
  date : Date
  hour : Nat
  minute : Nat
  second : Nat
  millisecond : Nat
deriving DecidableEq, Repr

/-- February has 29 days in every year divisible by 4, 2000 included (R7). -/
def isLeap (year : Nat) : Bool := year % 4 == 0

/-- The month lengths of a year (R7). -/
def monthLengths (leap : Bool) : List Nat := [31, if leap then 29 else 28, 31, 30, 31, 30, 31, 31, 30, 31, 30, 31]

/-- The length of a month, 0 for no month. -/
def monthLength (leap : Bool) (month : Nat) : Nat := if month = 0 then 0 else (monthLengths leap).getD (month - 1) 0

/-- Month and day of a day of the year, counted from 0. -/
def splitMonths : List Nat → Nat → Nat → Nat × Nat
  | [], m, d => (m, d + 1)
  | l :: ls, m, d => if d < l then (m, d + 1) else splitMonths ls (m + 1) (d - l)

/-- The date of a day count since 2000-01-01. A cycle of four years begins with its leap year. -/
def dateOfDay (d : Nat) : Date :=
  let r := d % 1461
  let year := 2000 + 4 * (d / 1461) + (if r < 366 then 0 else 1 + (r - 366) / 365)
  let doy := if r < 366 then r else (r - 366) % 365
  let md := splitMonths (monthLengths (r < 366)) 1 doy
  { year := year, month := md.1, day := md.2 }

/-- The day count since 2000-01-01 of a date. -/
def dayOfDate (x : Date) : Nat :=
  (x.year - 2000) * 365 + (x.year - 2000 + 3) / 4 + ((monthLengths (isLeap x.year)).take (x.month - 1)).sum + (x.day - 1)

/-- The weekday of a day count: 0 Monday to 6 Sunday; 2000-01-01 is 5 (R7). -/
def weekdayOfDay (d : Nat) : Nat := (d + 5) % 7

/-- The fields of a wall time given as its millisecond count (R7). -/
def wallFields (ms : Nat) : WallTime :=
  let t := ms % 86400000
  { date := dateOfDay (ms / 86400000), hour := t / 3600000, minute := t / 60000 % 60, second := t / 1000 % 60,
    millisecond := t % 1000 }

/-- The millisecond count of a wall time (R7 "Linear time"). -/
def wallMsOf (w : WallTime) : Nat :=
  dayOfDate w.date * 86400000 + w.hour * 3600000 + w.minute * 60000 + w.second * 1000 + w.millisecond

/-- A wall time lies in the ranges of R7. -/
def WallTime.inRange (w : WallTime) : Bool :=
  2000 ≤ w.date.year && w.date.year ≤ 2099 && 1 ≤ w.date.month && w.date.month ≤ 12 && 1 ≤ w.date.day &&
  w.date.day ≤ monthLength (isLeap w.date.year) w.date.month && w.hour ≤ 23 && w.minute ≤ 59 && w.second ≤ 59 &&
  w.millisecond ≤ 999

/-- The wall time a SET_CLOCK asks for, when every field is in range (R11). -/
def requestedWall? (p : WallPayload) : Option Nat :=
  let w : WallTime :=
    { date := { year := p.year.toNat, month := p.month.toNat, day := p.day.toNat }, hour := p.hour.toNat,
      minute := p.minute.toNat, second := p.second.toNat, millisecond := p.millisecond.toNat }
  if w.inRange then some (wallMsOf w) else none

/-- A month-day pair as one number, ordered by month, then day (R22). -/
def monthDay (month day : Nat) : Nat := month * 32 + day

/-- An enabled season entry covers a date (R22). -/
def SeasonEntry.covers (e : SeasonEntry) (x : Date) : Bool :=
  let d := monthDay x.month x.day
  let a := monthDay e.startMonth e.startDay
  let b := monthDay e.endMonth e.endDay
  e.enabled && (if a ≤ b then a ≤ d && d ≤ b else a ≤ d || d ≤ b)

/-- The better of two covering entries: higher rank, at equal rank the lower index (R23). The first was found earlier, at
a lower index. -/
def betterSeason (t : Vector SeasonEntry 16) (best : Option SeasonId) (k : SeasonId) : Option SeasonId :=
  match best with
  | none => some k
  | some j => if (t[j]).rank < (t[k]).rank then some k else some j

/-- The season entry that gives a date its season (R23). -/
def seasonEntryOf (t : Vector SeasonEntry 16) (x : Date) : Option SeasonId :=
  (allSeasons.filter fun k => (t[k]).covers x).foldl (betterSeason t) none

/-- The season a chosen entry stands for; season 0 where none covers (R23). -/
def seasonIdOf (t : Vector SeasonEntry 16) (k : Option SeasonId) : Nat :=
  match k with
  | none => 0
  | some k => (t[k]).seasonId

/-- The season of a date (R23). -/
def seasonOfDate (t : Vector SeasonEntry 16) (x : Date) : Nat := seasonIdOf t (seasonEntryOf t x)

end Sys2Proof.Machine
end

