-- ==== Sys2Proof/Machine/Operands.lean ====
section
/-! DEFINITION. Field coding (R195): how values become the bytes of responses, events and pages, and how payload fields
become values, with the range checks the rules of the requests make. -/

namespace Sys2Proof.Machine

/-! ### Numbers to bytes -/

/-- `k` bytes of a number, little-endian. -/
def le : Nat → Nat → List Byte
  | 0, _ => []
  | k + 1, n => BitVec.ofNat 8 (n % 256) :: le k (n / 256)

/-- The number bytes stand for, little-endian. -/
def ofLe : List Byte → Nat
  | [] => 0
  | b :: bs => b.toNat + 256 * ofLe bs

/-- A whole number in `k` bytes; free bytes where it does not fit (log 7). -/
def num (k n : Nat) : List Byte := if n < 256 ^ k then le k n else le k (Config.overwide k n)

/-- The low `k` bytes of a number in two's complement. -/
def twosLow (k : Nat) (z : Int) : List Byte := le k (z % (256 ^ k : Nat)).toNat

/-- A signed number in `k` bytes, two's complement; free bytes where it does not fit (log 7). -/
def twos (k : Nat) (z : Int) : List Byte :=
  if -((256 ^ k : Nat) : Int) ≤ 2 * z ∧ 2 * z < ((256 ^ k : Nat) : Int) then twosLow k z
  else le k (Config.overwide k z.toNat)

/-- A signed number read from bytes in two's complement. -/
def ofTwos (bs : List Byte) : Int :=
  let n := ofLe bs
  if 2 * n < 256 ^ bs.length then n else (n : Int) - (256 ^ bs.length : Nat)

def u8 (n : Nat) : List Byte := num 1 n
def u16 (n : Nat) : List Byte := num 2 n
def u32 (n : Nat) : List Byte := num 4 n

/-- Stage times and hammer times take 6 bytes. -/
def u48 (n : Nat) : List Byte := num 6 n

def i16 (z : Int) : List Byte := twos 2 z

/-- A flag: 0 for no, 1 for yes. -/
def flag (b : Bool) : List Byte := [if b then 1#8 else 0#8]

/-- An optional field: a presence byte, then the field, or 0xFF for each of its `size` bytes. -/
def opt {α : Type} (size : Nat) (f : α → List Byte) : Option α → List Byte
  | none => 0#8 :: List.replicate size 0xFF#8
  | some a => 1#8 :: f a

/-- A stored enumeration by its code. -/
def Coded.bytes {α : Type} (code : α → Nat) : Coded α → List Byte
  | .known a => u8 (code a)
  | .stray b => [b]

/-! ### Codes of enumerations: numbered from 0 in the order of the table or list that defines them -/

def ResultCode.code : ResultCode → Nat
  | .ok => 0 | .accepted => 1 | .denied => 2 | .badFrame => 3 | .badArg => 4 | .mode => 5 | .busy => 6 | .full => 7
  | .notFound => 8 | .claimed => 9 | .unavailable => 10 | .pinned => 11 | .isProtected => 12 | .notErased => 13
  | .notReady => 14

/-- The number of an event kind within its class (R196). -/
def EventKind.code : EventKind → Nat
  | .showStarted => 0 | .showEnded => 1 | .startExpired => 2 | .startFailed => 3 | .waitTimeout => 4 | .scriptFault => 5
  | .calendarFired => 0 | .calendarSkipped => 1 | .seasonChanged => 2
  | .bellFault => 0 | .supplyRange => 1
  | .axisArrived => 0 | .axisStopped => 1 | .axisHomed => 2 | .axisFault => 3 | .moveDiscarded => 4 | .moveHeld => 5
  | .interlockTimeout => 6
  | .storeDone => 0 | .versionReclaimed => 1 | .storeLoaded => 2
  | .timeStepped => 0 | .clockLost => 1
  | .modeChanged => 0 | .freezeStarted => 1 | .freezeEnded => 2 | .freezeExpired => 3 | .restraintChanged => 4
  | .marker => 0

/-- Subject kind and number (R196). -/
def Subject.code : Subject → Nat × Nat
  | .player n => (0, n) | .bell n => (1, n) | .axis n => (2, n) | .page n => (3, n) | .calendarEntry n => (4, n)
  | .seasonEntry n => (5, n) | .programme n => (6, n)

def PortId.code (p : PortId) : Nat := p.idx.val
def Validity.code : Validity → Nat | .invalid => 0 | .valid => 1
/-- DESIGN CHOICE (unsafe, log 13): no table or list of the spec orders the oscillator states. -/
def Oscillator.code : Oscillator → Nat | .stabilising => 0 | .running => 1
def CalendarKind.code : CalendarKind → Nat | .dailyAt => 0 | .hourly => 1 | .interval => 2 | .noKind => 3
def SilentPolicy.code : SilentPolicy → Nat | .play => 0 | .skip => 1
def SkipReason.code : SkipReason → Nat
  | .clockInvalid => 0 | .mode => 1 | .silent => 2 | .late => 3 | .notFound => 4 | .queueFull => 5
def PlayerState.code : PlayerState → Nat | .idle => 0 | .priming => 1 | .running => 2 | .waiting => 3 | .draining => 4
def WaitReason.code : WaitReason → Nat | .slot => 0 | .await => 1 | .waitAxis => 2
def ShowOutcome.code : ShowOutcome → Nat | .completed => 0 | .stopped => 1 | .preempted => 2 | .halted => 3
def ChannelState.code : ChannelState → Nat | .idle => 0 | .fetching => 1 | .waitingStore => 2 | .atEnd => 3
def ReadState.code : ReadState → Nat | .none => 0 | .queued => 1 | .inFlight => 2
def BellState.code : BellState → Nat | .inService => 0 | .faulted => 1 | .disabled => 2
def Polarity.code : Polarity → Nat | .activeHigh => 0 | .activeLow => 1
def Level.code : Level → Nat | .high => 0 | .low => 1
def Direction.code : Direction → Nat | .negative => 0 | .positive => 1
def DirectionPolarity.code : DirectionPolarity → Nat | .highPositive => 0 | .lowPositive => 1
def PinMode.code : PinMode → Nat | .pushPull => 0 | .openDrain => 1
def boolCode (b : Bool) : Nat := if b then 1 else 0
def HammerState.code : HammerState → Nat | .rest => 0 | .driving .. => 1 | .flight .. => 2 | .recovering .. => 3
def AxisState.code : AxisState → Nat
  | .unhomed => 0 | .homing => 1 | .idle => 2 | .moving => 3 | .stopping => 4 | .faulted => 5 | .disabled => 6
def SpeedAction.code : SpeedAction → Nat | .none => 0 | .accelerate => 1 | .decelerate => 2
def StopKind.code : StopKind → Nat | .controlled => 0 | .emergency => 1
def StopCause.code : StopCause → Nat | .stopAxis => 0 | .abort => 1 | .halt => 2 | .mode => 3 | .slip => 4
def DiscardReason.code : DiscardReason → Nat | .abort => 0 | .halt => 1 | .mode => 2 | .stopAxis => 3 | .unavailable => 4
def FaultReason.code : FaultReason → Nat | .homeNotFound => 0 | .slip => 1 | .limit => 2
def HomingPhase.code : HomingPhase → Nat | .backoff => 0 | .search => 1
def HomingOrigin.code : HomingOrigin → Nat | .homeAxis => 0 | .automatic => 1
def EntrySide.code : EntrySide → Nat | .low => 0 | .high => 1
def RollInterval.code : RollInterval → Nat | .a => 0 | .b => 1
def StageMode.code : StageMode → Nat | .auto => 0 | .manual => 1 | .halted => 2
def ModeCause.code : ModeCause → Nat
  | .enterManual => 0 | .leaveManual => 1 | .haltRequest => 2 | .haltInput => 3 | .resume => 4
def PageState.code : PageState → Nat | .free => 0 | .dirty => 1 | .draft => 2 | .live => 3 | .retiring => 4
def OpKind.code : OpKind → Nat
  | .erasePage => 0 | .writePage => 1 | .publish => 2 | .remove => 3 | .saveTables => 4 | .writeSetup => 5
def OpOutcome.code : OpOutcome → Nat | .ok => 0 | .badHeader => 1 | .sameVersion => 2 | .notDraft => 3 | .invalid => 4
def ArrayActivity.code : ArrayActivity → Nat
  | .idle => 0 | .erasing _ => 1 | .suspended _ => 2 | .programming _ => 3
def ResponseStatus.code : ResponseStatus → Nat | .pending => 0 | .done => 1

/-- Owners keep the numbers their rules give them: 0 to 2 for a player, 3 for SERVICE (R143, R195). -/
def MoveOwner.code : MoveOwner → Nat | .player p => p.val | .service => 3

/-- The source code: the calendar entry index, 64 for VENUE, 65 for SERVICE (R36). -/
def Source.code : Source → Nat | .calendar k => k.val | .venue => 64 | .service => 65

/-! ### Payload bytes to values -/

/-- A flag byte, 0 or 1 (R195). -/
def flagOf (b : Byte) : Option Bool := if b = 0#8 then some false else if b = 1#8 then some true else none

/-- A two-valued enumeration by its code. -/
def pickOf {α : Type} (first second : α) (b : Byte) : Option α :=
  if b = 0#8 then some first else if b = 1#8 then some second else none

def polarityOf : Byte → Option Polarity := pickOf .activeHigh .activeLow
def directionOf : Byte → Option Direction := pickOf .negative .positive
def directionPolarityOf : Byte → Option DirectionPolarity := pickOf .highPositive .lowPositive
def pinModeOf : Byte → Option PinMode := pickOf .pushPull .openDrain
def levelOf : Byte → Option Level := pickOf .high .low
def silentOf : Byte → Option SilentPolicy := pickOf .play .skip
def stopKindOf : Byte → Option StopKind := pickOf .controlled .emergency

/-- The state a WRITE_BELL or a stored record may give: IN_SERVICE or DISABLED (R78, R118). -/
def bellStateOf (b : Byte) : Option BellState :=
  if b = 0#8 then some .inService else if b = 2#8 then some .disabled else none

/-- The kind a code names (R195); `noKind` for any other. -/
def calendarKindOf (n : Nat) : CalendarKind :=
  match n with
  | 0 => .dailyAt
  | 1 => .hourly
  | 2 => .interval
  | _ => .noKind

/-- A stored code as a value, or as it stands. -/
def codedOf {α : Type} (f : Byte → Option α) (b : Byte) : Coded α :=
  match f b with
  | some a => .known a
  | none => .stray b

/-- The value a stored code acts as: a code that names none acts as the first or second of its list, freely (log 11). -/
def Coded.act {α : Type} (first second : α) : Coded α → α
  | .known a => a
  | .stray b => if Config.strayIsFirst b then first else second

def Coded.isKnown {α : Type} : Coded α → Bool
  | .known _ => true
  | .stray _ => false

/-- A byte of a list of bytes as a number, and little-endian fields from an offset. -/
def at1 (b : List Byte) (k : Nat) : Nat := (b.getD k 0#8).toNat
def at2 (b : List Byte) (k : Nat) : Nat := at1 b k + 256 * at1 b (k + 1)
def byteAt (b : List Byte) (k : Nat) : Byte := b.getD k 0#8
def half (b : List Byte) (k : Nat) : Half := BitVec.ofNat 16 (at2 b k)
def wide (b : List Byte) (k : Nat) : Wide := BitVec.ofNat 32 (at2 b k + 65536 * at2 b (k + 2))

/-! ### Range checks of the written records -/

/-- The parameters of an entry's own kind lie in their ranges (R20, R30). -/
def CalendarEntry.paramsInRange (e : CalendarEntry) : Bool :=
  match e.kind with
  | .dailyAt => e.hour ≤ 23 && e.minute ≤ 59
  | .hourly => e.hourlyMinute ≤ 59 && e.firstHour ≤ 23 && e.lastHour ≤ 23 && e.firstHour ≤ e.lastHour
  | .interval =>
    5 ≤ e.interval && e.interval ≤ 720 && e.windowFirst ≤ 1439 && e.windowLast ≤ 1439 && e.windowFirst ≤ e.windowLast
  | .noKind => false

/-- A definition WRITE_CALENDAR would take (R30). -/
def CalendarEntry.inRange (e : CalendarEntry) : Bool :=
  1 ≤ e.programme && e.programme ≤ 64 && e.priority ≤ 7 && e.paramsInRange

/-- The definition a WRITE_CALENDAR payload gives, unless a check of R30 refuses it. Parameters of the other kinds are
stored as given; the weekday mask's eighth bit is stored as 0. -/
def CalendarPayload.entry? (p : CalendarPayload) : Option CalendarEntry :=
  match flagOf p.enabled, silentOf p.silent with
  | some en, some sp =>
    let e : CalendarEntry :=
      { enabled := en, programme := p.programme.toNat, kind := calendarKindOf p.kind.toNat, hour := p.hour.toNat,
        minute := p.minute.toNat, hourlyMinute := p.hourlyMinute.toNat, firstHour := p.firstHour.toNat,
        lastHour := p.lastHour.toNat, interval := p.interval.toNat, windowFirst := p.windowFirst.toNat,
        windowLast := p.windowLast.toNat, weekdays := p.weekdays &&& 0x7F#8, seasons := p.seasons,
        priority := p.priority.toNat, silent := sp }
    if e.inRange then some e else none
  | _, _ => none

/-- A season entry WRITE_SEASON would take (R31): days up to the month's length in a leap year. -/
def SeasonEntry.inRange (e : SeasonEntry) : Bool :=
  1 ≤ e.startMonth && e.startMonth ≤ 12 && 1 ≤ e.endMonth && e.endMonth ≤ 12 && 1 ≤ e.startDay &&
  e.startDay ≤ monthLength true e.startMonth && 1 ≤ e.endDay && e.endDay ≤ monthLength true e.endMonth &&
  1 ≤ e.seasonId && e.seasonId ≤ 15 && e.rank ≤ 15

/-- The entry a WRITE_SEASON payload gives, unless a check of R31 refuses it. -/
def SeasonPayload.entry? (p : SeasonPayload) : Option SeasonEntry :=
  match flagOf p.enabled with
  | some en =>
    let e : SeasonEntry :=
      { enabled := en, startMonth := p.startMonth.toNat, startDay := p.startDay.toNat, endMonth := p.endMonth.toNat,
        endDay := p.endDay.toNat, seasonId := p.seasonId.toNat, rank := p.rank.toNat }
    if e.inRange then some e else none
  | none => none

/-- A profile in range (R125). -/
def Profile.inRange (p : Profile) : Bool :=
  1 ≤ p.maxSpeed && p.maxSpeed ≤ 20000 && 10 ≤ p.acceleration && p.acceleration ≤ 100000 && 10 ≤ p.deceleration &&
  p.deceleration ≤ 100000

/-- The profile a WRITE_PROFILE payload gives. -/
def ProfilePayload.profile (p : ProfilePayload) : Profile :=
  { maxSpeed := p.maxSpeed.toNat, acceleration := p.acceleration.toNat, deceleration := p.deceleration.toNat }

/-- The numbers of a bell record lie in their ranges (R77). -/
def Bell.inRange (b : Bell) : Bool :=
  20 ≤ b.driveMin && b.driveMin ≤ 2000 && b.driveMin ≤ b.driveMax && b.driveMax ≤ 2000 && b.recover ≤ 25000 &&
  100 ≤ b.flightInit && b.flightInit ≤ 3000 && 1 ≤ b.velocityCap && b.velocityCap ≤ 127 &&
  b.outputPolarity.isKnown && b.contactPolarity.isKnown

/-- A bell record with a written or stored configuration, over the record that keeps its other fields: the flight estimate
becomes flight_init and the misses 0 (R78, R118). -/
def BellPayload.apply (p : BellPayload) (state : BellState) (b : Bell) : Bell :=
  { b with
    state := state, driveMin := p.driveMin.toNat, driveMax := p.driveMax.toNat, recover := p.recover.toNat,
    flightInit := p.flightInit.toNat, flight := p.flightInit.toNat, velocityCap := p.velocityCap.toNat,
    outputPolarity := codedOf polarityOf p.outputPolarity, contactPolarity := codedOf polarityOf p.contactPolarity,
    misses := 0 }

/-- The axis configuration a payload or a stored record gives, with `enabled` as given. -/
def AxisPayload.config (p : AxisPayload) (enabled : Bool) : AxisConfig :=
  { enabled := enabled, softLow := p.softLow.toInt, softHigh := p.softHigh.toInt, home := p.home.toInt,
    homeDirection := codedOf directionOf p.homeDirection, homeSpeed := p.homeSpeed.toNat,
    searchTravel := p.searchTravel.toNat, slipTolerance := p.slipTolerance.toNat,
    emergencyDeceleration := p.emergencyDeceleration.toNat, stepPolarity := codedOf polarityOf p.stepPolarity,
    directionPolarity := codedOf directionPolarityOf p.directionPolarity, pinMode := codedOf pinModeOf p.pinMode,
    pullUp := codedOf flagOf p.pullUp, switchActive := codedOf levelOf p.switchActive }

/-- An axis configuration is well formed: fields in range, soft limits ordered, home value inside them (R122, R142). -/
def AxisConfig.wellFormed (c : AxisConfig) : Bool :=
  decide (c.softLow < c.softHigh) && decide (c.softLow ≤ c.home) && decide (c.home ≤ c.softHigh) &&
  c.homeDirection.isKnown && 1 ≤ c.homeSpeed && c.homeSpeed ≤ 20000 && 1 ≤ c.searchTravel && c.searchTravel ≤ 65535 &&
  c.slipTolerance ≤ 255 && 10 ≤ c.emergencyDeceleration && c.emergencyDeceleration ≤ 100000 && c.stepPolarity.isKnown &&
  c.directionPolarity.isKnown && c.pinMode.isKnown && c.pullUp.isKnown && c.switchActive.isKnown

/-- The interlock entry a payload or a stored record gives, with `enabled` as given. -/
def InterlockPayload.entry (p : InterlockPayload) (enabled : Bool) : Interlock :=
  { enabled := enabled, guarded := p.guarded.toNat, safeLow := p.safeLow.toInt, safeHigh := p.safeHigh.toInt,
    condition := p.condition.toNat, windowLow := p.windowLow.toInt, windowHigh := p.windowHigh.toInt }

/-- An interlock entry is well formed (R145, R151). -/
def Interlock.wellFormed (e : Interlock) : Bool :=
  e.guarded ≤ 7 && e.condition ≤ 7 && e.guarded != e.condition && decide (e.safeLow ≤ e.safeHigh) &&
  decide (e.windowLow ≤ e.windowHigh)

/-- A port address in range (R177). -/
def addressInRange (n : Nat) : Bool := 0x08 ≤ n && n ≤ 0x77

/-- Every field of a WRITE_SETUP payload lies in its range (R177, R178). -/
def SetupPayload.inRange (p : SetupPayload) : Bool :=
  addressInRange p.venueAddress.toNat && addressInRange p.programmeAddress.toNat &&
  addressInRange p.serviceAddress.toNat && (flagOf p.venueHold).isSome && (flagOf p.programmeHold).isSome &&
  (flagOf p.serviceHold).isSome && 1 ≤ p.driveSlots.toNat && p.driveSlots.toNat ≤ 6 && p.slipAllowance.toNat ≤ 30 &&
  1 ≤ p.holdTimeout.toNat && 1 ≤ p.freezeLimit.toNat && p.freezeLimit.toNat ≤ 60 && (flagOf p.autoHome).isSome

end Sys2Proof.Machine
end

