-- ==== Sys2Proof/Machine/Strike.lean ====
section
/-! DEFINITION. The strike scheduler (chapter 5): the launch computation, the same-bell guard, placing, removals, flushes
and rolls. -/

namespace Sys2Proof.Machine

/-- A 48-bit saturating count rises by `k`. -/
def add48 (n k : Nat) : Nat := max n (min (n + k) Config.maxStage)

/-! ### The launch computation (R82 to R86) -/

/-- The drive ceiling (R77). -/
def Bell.ceiling (b : Bell) : Nat := min 2000 (b.driveMax + b.driveMax / 4)

/-- A cue velocity of 0 or above 127 is taken as 1 or 127 (R81). -/
def cueVelocity (v : Nat) : Nat := max 1 (min v 127)

/-- Stage 1: the effective velocity (R82). -/
def effectiveVelocity (v cap ceiling : Nat) : Nat := min (min v cap) ceiling

/-- Stage 2: the nominal drive time (R83). -/
def nominalDrive (b : Bell) (ve : Nat) : Nat := b.driveMin + ((b.driveMax - b.driveMin) * (ve - 1) + 63) / 126

/-- The supply reading the computation uses: clamped to 200 to 280 (R84). -/
def supplyUsed (uRaw : Nat) : Nat := max 200 (min uRaw 280)

/-- Stage 3: the supply correction (R84). -/
def correctedDrive (d0 u : Nat) : Nat := (d0 * 240 + u / 2) / u

/-- Stage 4: the drive time (R85). -/
def clampDrive (b : Bell) (d1 : Nat) : Nat := max b.driveMin (min d1 b.ceiling)

/-- Stages 1 to 4 of an offer: effective velocity and drive time. -/
def State.strikeFigures (s : State) (b : BellId) (v : Nat) : Nat × Nat :=
  let bell := s.bell b
  let ve := effectiveVelocity (cueVelocity v) bell.velocityCap s.backup.ceiling
  (ve, clampDrive bell (correctedDrive (nominalDrive bell ve) (supplyUsed s.hammer.uRaw)))

/-! ### The same-bell guard (R88, R89) -/

/-- The later of two optional instants. -/
def laterOf : Option Nat → Option Nat → Option Nat
  | none, y => y
  | x, none => x
  | some a, some b => some (max a b)

/-- The queued guard end: that of the bell's last entry in strike-queue order (R88). -/
def queuedGuard (q : List StrikeEntry) (b : BellId) : Option Nat :=
  (q.filter fun e => e.bell == b).getLast?.map (·.guardEnd)

/-- The bell's ready time R (R88). -/
def State.readyTime (s : State) (b : BellId) : Option Nat := laterOf (s.bell b).guardEnd (queuedGuard s.strikes.queue b)

/-- Stage 7: the launch time the guard leaves, `none` when the strike collides (R89). -/
def guardedLaunch (launch : Nat) (ready : Option Nat) (allowanceMs : Nat) : Option Nat :=
  match ready with
  | none => some launch
  | some r => if r ≤ launch then some launch else if r - launch ≤ allowanceMs * 100 then some r else none

/-! ### The strike queue (R79) -/

/-- Strike-queue order: launch time, bell number, enqueue number (R79). -/
def StrikeEntry.before (a b : StrikeEntry) : Bool :=
  a.launch < b.launch || (a.launch == b.launch && (a.bell.val < b.bell.val || (a.bell == b.bell && a.number < b.number)))

/-- Places an entry in strike-queue order (R90). -/
def placeStrike (x : StrikeEntry) : List StrikeEntry → List StrikeEntry
  | [] => [x]
  | e :: q => if x.before e then x :: e :: q else e :: placeStrike x q

/-- How an offer ends (R80 table). -/
inductive OfferOutcome where
  | placed (e : StrikeEntry)
  | late
  | collided
  | full
  | unavailable
deriving DecidableEq, Repr

/-- An entry removed from the queue as muted (R92). -/
def State.removeMuted (s : State) (e : StrikeEntry) : State :=
  (s.modStrikes fun k => { k with queue := k.queue.erase e }).countStrike fun c => { c with muted := sat48 c.muted }

/-- An entry removed from the queue as late (R93). -/
def State.removeLate (s : State) (e : StrikeEntry) : State :=
  (s.modStrikes fun k => { k with queue := k.queue.erase e }).countStrike fun c => { c with late := sat48 c.late }

/-- Stages 7 and the capacity check for a strike with its launch time from stage 6 (R88 to R90). Enqueue numbers go on past
2^48 − 1 (log 8). -/
def State.enqueueStrike (s : State) (b : BellId) (ve d f sound launch latest : Nat) (owner : Option PlayerId)
    (slot : Option RollId) : State × OfferOutcome :=
  match guardedLaunch launch (s.readyTime b) s.store.setup.slipAllowance with
  | none => (s.countStrike fun c => { c with refusedCollided := sat48 c.refusedCollided }, .collided)
  | some l =>
    if s.strikes.queue.length < Config.strikeCapacity then
      let e : StrikeEntry :=
        { bell := b, velocity := ve, drive := d, flight := f, sound := sound, launch := l, latest := latest,
          guardEnd := l + d + f + (s.bell b).recover, recover := (s.bell b).recover, owner := owner, slot := slot,
          number := s.strikes.enqueued + 1 }
      let s1 := (s.modStrikes fun k => { k with queue := placeStrike e k.queue, enqueued := k.enqueued + 1 }).countStrike
        fun c => { c with enqueued := sat48 c.enqueued }
      (if s1.backup.mute && s1.strikeIsDue e then s1.removeMuted e else s1, .placed e)
    else (s.countStrike fun c => { c with refusedFull := sat48 c.refusedFull }, .full)

/-- An offer to a bell in service, with its sound time (R82 to R90). -/
def State.offerAt (s : State) (b : BellId) (v sound : Nat) (owner : Option PlayerId) (slot : Option RollId) :
    State × OfferOutcome :=
  let fig := s.strikeFigures b v
  let f := (s.bell b).flight
  let l0 : Int := (sound : Int) - (fig.2 + f : Nat)
  let now := s.time.stageTime
  if (now : Int) ≤ l0 then s.enqueueStrike b fig.1 fig.2 f sound l0.toNat (l0.toNat + Config.launchGrace) owner slot
  else if (now : Int) - l0 ≤ Config.launchGrace then
    s.enqueueStrike b fig.1 fig.2 f sound now (l0 + Config.launchGrace).toNat owner slot
  else
    (s.countStrike fun c => { c with enqueued := sat48 c.enqueued, late := sat48 c.late }, .late)

/-- A refusal as unavailable (R81). -/
def State.refuseUnavailable (s : State) : State :=
  s.countStrike fun c => { c with refusedUnavailable := sat48 c.refusedUnavailable }

/-- A bell that a number names and that is IN_SERVICE (R81). -/
def State.bellInService? (s : State) (bell : Nat) : Option BellId :=
  match finId? 24 bell with
  | some b => if (s.bell b).state = .inService then some b else none
  | none => none

/-- An offer by bell number (R80, R81). -/
def State.offerStrike (s : State) (bell v sound : Nat) (owner : Option PlayerId) (slot : Option RollId) :
    State × OfferOutcome :=
  match s.bellInService? bell with
  | some b => s.offerAt b v sound owner slot
  | none => (s.refuseUnavailable, .unavailable)

/-! ### Flushes (R100 to R102) -/

/-- Removes the entries a test picks, each counted flushed. -/
def State.flushStrikes (s : State) (pick : StrikeEntry → Bool) : State :=
  let gone := (s.strikes.queue.filter pick).length
  (s.modStrikes fun k => { k with queue := k.queue.filter fun e => !pick e }).countStrike
    fun c => { c with flushed := add48 c.flushed gone }

/-- Frees the roll slots a test picks (R98). -/
def State.freeRolls (s : State) (pick : Roll → Bool) : State :=
  allRolls.foldl (fun s r => match s.roll r with
    | some x => if pick x then s.setRoll r none else s
    | none => s) s

/-- The flush of an aborted player (R100). -/
def State.flushPlayer (s : State) (p : PlayerId) : State :=
  (s.flushStrikes fun e => e.owner == some p).freeRolls fun x => x.owner == p

/-- The flush of a faulted bell (R101). -/
def State.flushBell (s : State) (b : BellId) : State :=
  ((s.flushStrikes fun e => e.bell == b).freeRolls fun x => x.bell == b).modBell b fun x => { x with guardEnd := none }

/-- The flush of entering HALTED (R102). -/
def State.flushAllStrikes (s : State) : State := (s.flushStrikes fun _ => true).freeRolls fun _ => true

/-! ### Rolls (R95 to R98) -/

/-- The roll slot that holds a bell. -/
def State.rollOf? (s : State) (b : BellId) : Option RollId :=
  allRolls.find? fun r => match s.roll r with
    | some x => x.bell == b
    | none => false

/-- The lowest-numbered FREE roll slot. -/
def State.freeRoll? (s : State) : Option RollId := allRolls.find? fun r => (s.roll r).isNone

/-- The strikes still to issue of a fresh roll: count − 1; a stored count below 2 is of no published cue and leaves it
free (log 12). -/
def rollRemaining (count : Nat) : Nat := if 2 ≤ count then count - 1 else Config.shortRoll count % 255

/-- A ROLL cue is acted on (R96); intervals outside 2 to 200 of a spoilt script are taken as read (log 12). DESIGN CHOICE
(unsafe, log 29): for a bell that is not IN_SERVICE while an ACTIVE slot holds it, where rows 1 and 2 of the table both
apply, row 1 is taken: the first strike is refused and the slot is not restarted. -/
def State.rollCue (s : State) (p : PlayerId) (bell v a b count sound : Nat) : State :=
  match s.bellInService? bell with
  | none => s.refuseUnavailable
  | some id =>
    match (match s.rollOf? id with
      | some r => some r
      | none => s.freeRoll?) with
    | some r =>
      let x : Roll :=
        { owner := p, bell := id, velocity := cueVelocity v, intervalA := a, intervalB := b, next := .b,
          nextSound := sound + a * 1000, remaining := rollRemaining count }
      ((s.setRoll r (some x)).offerAt id v sound (some p) (some r)).1
    | none =>
      ((s.countStrike fun c => { c with rollsDegraded := sat48 c.rollsDegraded }).offerAt id v sound (some p) none).1

/-- A slot's next issue falls 100 ms before its next sound (R97). -/
def Roll.issueDue (x : Roll) (now : Nat) : Bool := x.nextSound ≤ now + Config.rollLookahead

/-- The slot after an issue: FREE once nothing remains (R97, R98). -/
def Roll.afterIssue (x : Roll) : Option Roll :=
  if x.remaining ≤ 1 then none
  else some { x with
    remaining := x.remaining - 1,
    nextSound := x.nextSound + (match x.next with | .a => x.intervalA | .b => x.intervalB) * 1000,
    next := (match x.next with | .a => .b | .b => .a) }

/-- A slot issues its due strikes, one after another (R97); it holds at most 254. -/
def issueRoll (r : RollId) : Nat → State → State
  | 0, s => s
  | fuel + 1, s =>
    match s.roll r with
    | none => s
    | some x =>
      if x.issueDue s.time.stageTime then
        issueRoll r fuel (((s.offerStrike x.bell.val x.velocity x.nextSound (some x.owner) (some r)).1).setRoll r
          x.afterIssue)
      else s

/-! ### Launch (R91 to R94, R108, R109) -/

/-- The first launch candidate in strike-queue order (R108). -/
def State.firstCandidate? (s : State) : Option StrikeEntry := s.strikes.queue.find? s.candidate

/-- A drive slot takes or loses its bell. -/
def State.setSlot (s : State) (k : Nat) (b : Option BellId) : State :=
  s.modHammerDrive fun h => { h with slots := h.slots.set k b }

/-- A strike launches on a drive slot: the handover of R94 and the entry to DRIVING of R109, one event. -/
def State.launch (s : State) (e : StrikeEntry) (slot : Nat) : State :=
  let s1 := (s.modStrikes fun k => { k with queue := k.queue.erase e }).countStrike
    fun c => { c with launched := sat48 c.launched }
  let s2 := s1.modBell e.bell fun b =>
    { b with launched := sat32 b.launched, guardEnd := some (s.time.stageTime + e.drive + e.flight + e.recover) }
  (s2.setSlot slot (some e.bell)).modHammer e.bell
    fun h => { h with state := .driving s.time.hammerTime e.drive slot }

/-- What the arbiter would grant now: the first candidate and the lowest-numbered FREE slot (R108). -/
def State.nextGrant? (s : State) : Option (StrikeEntry × Nat) :=
  match s.firstCandidate?, firstFree s.hammer.slots 0 with
  | some e, some k => some (e, k)
  | _, _ => none

/-- Removes every due strike as muted, when mute is turned on (R92). DESIGN CHOICE (unsafe, log 34): a strike deferred to its
latest launch + 1 (R89), which is due and late at one stage time, is removed as muted where it is still queued as mute is
turned on at it. -/
def State.muteDueStrikes (s : State) : State := (s.strikes.queue.filter s.strikeIsDue).foldl State.removeMuted s

end Sys2Proof.Machine
end

