-- ==== Sys2Proof/Machine/Hammer.lean ====
section
/-! DEFINITION. The hammer drive (chapter 6): drive end, contact capture, misses, bell faults, rest and the supply
monitor. -/

namespace Sys2Proof.Machine

/-- A bell's hammer comes to REST, and the scheduler clears its in-progress guard end (R88, R115). -/
def State.restHammer (s : State) (b : BellId) : State :=
  (s.modHammer b fun h => { h with state := .rest }).modBell b fun x => { x with guardEnd := none }

/-- A hammer enters RECOVERING until `rest`; with recover 0 it enters REST in the same event (R115). -/
def State.recoverHammer (s : State) (b : BellId) (start drive rest : Nat) : State :=
  if (s.bell b).recover = 0 then s.restHammer b
  else s.modHammer b fun h => { h with state := .recovering start drive rest }

/-- The drive pulse ends: the slot is freed and the bell enters FLIGHT (R110). -/
def State.endDrive (s : State) (b : BellId) (start drive slot : Nat) : State :=
  (s.setSlot slot none).modHammer b fun h => { h with state := .flight start drive }

/-- The learned estimate after a measured flight (R112). -/
def learnFlight (f m : Nat) : Nat := (max 100 (min ((f : Int) + ((m : Int) - f + 4) / 8) 3000)).toNat

/-- A contact is captured at the current hammer time (R112). -/
def State.captureContact (s : State) (b : BellId) (start drive : Nat) : State :=
  let c := s.time.hammerTime
  let m := c - (start + drive)
  let s1 := s.modBell b fun x => { x with flight := learnFlight x.flight m, misses := 0 }
  let s2 := (s1.modHammer b fun h => { h with lastContact := some (c, m) }).countHammer
    fun k => { k with contacts := sat32 k.contacts }
  s2.recoverHammer b start drive (c + (s.bell b).recover)

/-- A contact input is seen at a level on the current hammer tick (R111); before the ticks begin only the level is
kept. -/
def State.sampleContact (s : State) (b : BellId) (level : Level) : State :=
  let pol := (s.bell b).contactPolarity.polarity
  let edge := contactActive pol level && !contactActive pol s.pins.contact[b]
  let s1 := { s with pins := { s.pins with contact := s.pins.contact.set b level } }
  match (s.hammerOf b).state with
  | .flight start drive =>
    if s.running && edge && start + drive + Config.windowOpen ≤ s.time.hammerTime &&
        s.time.hammerTime ≤ start + drive + Config.windowClose then s1.captureContact b start drive
    else s1
  | _ => s1

/-- A bell faults at its third miss (R114). -/
def State.faultBell (s : State) (b : BellId) : State :=
  let gone := (s.strikes.queue.filter fun e => e.bell == b).length
  (((s.modBell b fun x => { x with state := .faulted, misses := 3 }).flushBell b).report .bellFault (some (.bell b.val))
    (some 3) (some gone)).countHammer fun k => { k with bellFaults := sat32 k.bellFaults }

/-- A miss is counted, for its bell and for the part (R113). -/
def State.countMiss (s : State) (b : BellId) : State :=
  (s.modBell b fun x => { x with misses := x.misses + 1 }).countHammer fun k => { k with misses := sat32 k.misses }

/-- A bell faults once it has missed three times (R114). -/
def State.checkMisses (s : State) (b : BellId) : State := if 3 ≤ (s.bell b).misses then s.faultBell b else s

/-- A contact window closes with no contact (R113). -/
def State.missContact (s : State) (b : BellId) (start drive : Nat) : State :=
  ((s.countMiss b).checkMisses b).recoverHammer b start drive (start + drive + Config.windowClose + (s.bell b).recover)

/-- A sample of the supply rail (R117). -/
def State.sampleSupply (s : State) (u : Nat) : State :=
  let out := u < 200 || 280 < u
  let s1 := s.modHammerDrive fun h => { h with uRaw := u, supplyRange := out }
  if out == s.hammer.supplyRange then s1
  else
    let s2 := s1.report .supplyRange none (some (boolCode out)) (some u)
    if out then s2.countHammer fun k => { k with supplyExcursions := sat32 k.supplyExcursions } else s2

end Sys2Proof.Machine
end

