-- ==== Sys2Proof/Decode.lean ====
section
/-! DEFINITION. Request frames (R196): the command a port's write spells, and the frame of a request. The opcode table gives
its rows no bits, so `decodeTableWord` answers none for every word (log 17). -/

namespace Sys2Proof

open Machine (le half wide byteAt)

/-- The command a word spells by the opcode table's bits: the table gives no row bits, so none (log 17). -/
def decodeTableWord (_nbits _w : Nat) : Option Instr := none

/-! ### Payload fields in the order of their rules -/

def half2 (h : Half) : List Byte := le 2 h.toNat
def wide4 (w : Wide) : List Byte := le 4 w.toNat

def WallPayload.bytes (p : WallPayload) : List Byte :=
  half2 p.year ++ [p.month, p.day, p.hour, p.minute, p.second] ++ half2 p.millisecond

def CalendarPayload.bytes (p : CalendarPayload) : List Byte :=
  [p.enabled, p.programme, p.kind, p.hour, p.minute, p.hourlyMinute, p.firstHour, p.lastHour] ++ half2 p.interval ++
  half2 p.windowFirst ++ half2 p.windowLast ++ [p.weekdays] ++ half2 p.seasons ++ [p.priority, p.silent]

def SeasonPayload.bytes (p : SeasonPayload) : List Byte :=
  [p.enabled, p.startMonth, p.startDay, p.endMonth, p.endDay, p.seasonId, p.rank]

def ProfilePayload.bytes (p : ProfilePayload) : List Byte :=
  half2 p.maxSpeed ++ wide4 p.acceleration ++ wide4 p.deceleration

def BellPayload.bytes (p : BellPayload) : List Byte :=
  [p.state] ++ half2 p.driveMin ++ half2 p.driveMax ++ half2 p.recover ++ half2 p.flightInit ++
  [p.velocityCap, p.outputPolarity, p.contactPolarity]

def AxisPayload.bytes (p : AxisPayload) : List Byte :=
  [p.enabled] ++ half2 p.softLow ++ half2 p.softHigh ++ half2 p.home ++ [p.homeDirection] ++ half2 p.homeSpeed ++
  half2 p.searchTravel ++ [p.slipTolerance] ++ wide4 p.emergencyDeceleration ++
  [p.stepPolarity, p.directionPolarity, p.pinMode, p.pullUp, p.switchActive]

def InterlockPayload.bytes (p : InterlockPayload) : List Byte :=
  [p.enabled, p.guarded] ++ half2 p.safeLow ++ half2 p.safeHigh ++ [p.condition] ++ half2 p.windowLow ++
  half2 p.windowHigh

def SetupPayload.bytes (p : SetupPayload) : List Byte :=
  [p.venueAddress, p.programmeAddress, p.serviceAddress, p.venueHold, p.programmeHold, p.serviceHold, p.driveSlots,
   p.slipAllowance, p.holdTimeout, p.freezeLimit, p.autoHome] ++ half2 p.protection

/-! ### From payload bytes -/

def wallOf (b : List Byte) : WallPayload :=
  { year := half b 0, month := byteAt b 2, day := byteAt b 3, hour := byteAt b 4, minute := byteAt b 5,
    second := byteAt b 6, millisecond := half b 7 }

def calendarOf (b : List Byte) : CalendarPayload :=
  { enabled := byteAt b 0, programme := byteAt b 1, kind := byteAt b 2, hour := byteAt b 3, minute := byteAt b 4,
    hourlyMinute := byteAt b 5, firstHour := byteAt b 6, lastHour := byteAt b 7, interval := half b 8,
    windowFirst := half b 10, windowLast := half b 12, weekdays := byteAt b 14, seasons := half b 15,
    priority := byteAt b 17, silent := byteAt b 18 }

def seasonOf (b : List Byte) : SeasonPayload :=
  { enabled := byteAt b 0, startMonth := byteAt b 1, startDay := byteAt b 2, endMonth := byteAt b 3, endDay := byteAt b 4,
    seasonId := byteAt b 5, rank := byteAt b 6 }

def profileOf (b : List Byte) : ProfilePayload :=
  { maxSpeed := half b 0, acceleration := wide b 2, deceleration := wide b 6 }

def bellOf (b : List Byte) : BellPayload :=
  { state := byteAt b 0, driveMin := half b 1, driveMax := half b 3, recover := half b 5, flightInit := half b 7,
    velocityCap := byteAt b 9, outputPolarity := byteAt b 10, contactPolarity := byteAt b 11 }

def axisOf (b : List Byte) : AxisPayload :=
  { enabled := byteAt b 0, softLow := half b 1, softHigh := half b 3, home := half b 5, homeDirection := byteAt b 7,
    homeSpeed := half b 8, searchTravel := half b 10, slipTolerance := byteAt b 12, emergencyDeceleration := wide b 13,
    stepPolarity := byteAt b 17, directionPolarity := byteAt b 18, pinMode := byteAt b 19, pullUp := byteAt b 20,
    switchActive := byteAt b 21 }

def interlockOf (b : List Byte) : InterlockPayload :=
  { enabled := byteAt b 0, guarded := byteAt b 1, safeLow := half b 2, safeHigh := half b 4, condition := byteAt b 6,
    windowLow := half b 7, windowHigh := half b 9 }

def setupOf (b : List Byte) : SetupPayload :=
  { venueAddress := byteAt b 0, programmeAddress := byteAt b 1, serviceAddress := byteAt b 2, venueHold := byteAt b 3,
    programmeHold := byteAt b 4, serviceHold := byteAt b 5, driveSlots := byteAt b 6, slipAllowance := byteAt b 7,
    holdTimeout := byteAt b 8, freezeLimit := byteAt b 9, autoHome := byteAt b 10, protection := half b 11 }

/-! ### Frames -/

/-- The payload length is one the request code allows (R196); of READ_STORE by its form byte. -/
def lengthAllowed (code : Nat) (payload : List Byte) : Bool :=
  let n := payload.length
  match code with
  | 1 | 2 | 4 | 14 | 15 | 19 | 27 | 28 | 29 | 30 | 31 | 41 => n == 0
  | 3 | 5 | 6 | 7 | 8 | 11 | 17 | 23 | 34 => n == 1
  | 9 | 13 | 16 | 18 | 21 | 33 | 35 | 39 => n == 2
  | 22 => n == 3
  | 32 => n == 5
  | 25 => n == 8
  | 12 => n == 9
  | 26 => n == 11
  | 38 => n == 12
  | 36 | 40 => n == 13
  | 24 => n == 20
  | 37 => n == 23
  | 20 => 3 ≤ n && n ≤ 66
  | 10 => (n == 6 && byteAt payload 0 != 1#8 && byteAt payload 0 != 2#8) || (n == 4 && byteAt payload 0 != 0#8)
  | _ => false

/-- READ_ENTRY by its table byte. -/
def readEntryOf (p : PortId) (table index : Byte) : Instr :=
  if table = 1#8 then .readEntrySeason p index
  else if table = 2#8 then .readEntryProfile p index
  else if table = 3#8 then .readEntryInterlock p index
  else if table = 4#8 then .readEntryDirectory p index
  else .readEntryCalendar p table index

/-- READ_STORE by its form byte and length. -/
def readStoreOf (p : PortId) (b : List Byte) : Instr :=
  if b.length = 6 then .readStorePage p (byteAt b 0) (half b 1) (half b 3) (byteAt b 5)
  else if byteAt b 0 = 2#8 then .readStoreMap p (half b 1) (byteAt b 3)
  else .readStoreStage p (byteAt b 0) (half b 1) (byteAt b 3)

/-- The request a code and a payload of an allowed length spell (R196). -/
def requestOf (p : PortId) (code : Nat) (b : List Byte) : Instr :=
  match code with
  | 1 => .getStatus p
  | 2 => .nextEvent p
  | 3 => .setRouting p (byteAt b 0)
  | 4 => .readClock p
  | 5 => .readPlayer p (byteAt b 0)
  | 6 => if byteAt b 0 = 1#8 then .readQueueStrike p else .readQueueStart p (byteAt b 0)
  | 7 => .readBell p (byteAt b 0)
  | 8 => .readAxis p (byteAt b 0)
  | 9 => readEntryOf p (byteAt b 0) (byteAt b 1)
  | 10 => readStoreOf p b
  | 11 => .readCounters p (byteAt b 0)
  | 12 => .setClock p (wallOf b)
  | 13 => .setRestraint p (byteAt b 0) (byteAt b 1)
  | 14 => .halt p
  | 15 => .resume p
  | 16 => .startShow p (byteAt b 0) (byteAt b 1)
  | 17 => .stopShow p (byteAt b 0)
  | 18 => .erasePage p (half b 0)
  | 19 => .clearStage p
  | 20 => .loadStage p (half b 0) (b.drop 2)
  | 21 => .writePage p (half b 0)
  | 22 => .publish p (byteAt b 0) (half b 1)
  | 23 => .remove p (byteAt b 0)
  | 24 => .writeCalendar p (byteAt b 0) (calendarOf (b.drop 1))
  | 25 => .writeSeason p (byteAt b 0) (seasonOf (b.drop 1))
  | 26 => .writeProfile p (byteAt b 0) (profileOf (b.drop 1))
  | 27 => .saveTables p
  | 28 => .enterManual p
  | 29 => .leaveManual p
  | 30 => .freeze p
  | 31 => .thaw p
  | 32 => .jog p (byteAt b 0) (byteAt b 1) (half b 2) (byteAt b 4)
  | 33 => .stopAxis p (byteAt b 0) (byteAt b 1)
  | 34 => .homeAxis p (byteAt b 0)
  | 35 => .testStrike p (byteAt b 0) (byteAt b 1)
  | 36 => .writeBell p (byteAt b 0) (bellOf (b.drop 1))
  | 37 => .writeAxis p (byteAt b 0) (axisOf (b.drop 1))
  | 38 => .writeInterlock p (byteAt b 0) (interlockOf (b.drop 1))
  | 39 => if byteAt b 0 = 1#8 then .clearFaultAxis p (byteAt b 1) else .clearFaultBell p (byteAt b 0) (byteAt b 1)
  | 40 => .writeSetup p (setupOf b)
  | _ => .resetPart p

/-- The bytes a port stores of a write: at most 74 (R184). -/
def received (frame : List Byte) : List Byte := frame.take 74

/-- The request a write's bytes spell; none when they fail check 1 of R185. -/
def requestOfFrame? (p : PortId) (frame : List Byte) : Option Instr :=
  match received frame with
  | code :: len :: payload =>
    if payload.length = len.toNat ∧ len.toNat ≤ 72 ∧ lengthAllowed code.toNat payload then
      some (requestOf p code.toNat payload)
    else none
  | _ => none

/-- The command a write of at least one byte to an idle port is (R184, R185). -/
def commandOfFrame (p : PortId) (frame : List Byte) : Instr := (requestOfFrame? p frame).getD (.badFrame p frame)

/-- Port, request code and payload of a request (R196); none for the rows that are no request. -/
def requestParts? : Instr → Option (PortId × Nat × List Byte)
  | .getStatus p => some (p, 1, [])
  | .nextEvent p => some (p, 2, [])
  | .setRouting p m => some (p, 3, [m])
  | .readClock p => some (p, 4, [])
  | .readPlayer p n => some (p, 5, [n])
  | .readQueueStart p q => some (p, 6, [q])
  | .readQueueStrike p => some (p, 6, [1#8])
  | .readBell p n => some (p, 7, [n])
  | .readAxis p n => some (p, 8, [n])
  | .readEntryCalendar p t k => some (p, 9, [t, k])
  | .readEntrySeason p k => some (p, 9, [1#8, k])
  | .readEntryProfile p k => some (p, 9, [2#8, k])
  | .readEntryInterlock p k => some (p, 9, [3#8, k])
  | .readEntryDirectory p k => some (p, 9, [4#8, k])
  | .readStorePage p f page o n => some (p, 10, [f] ++ half2 page ++ half2 o ++ [n])
  | .readStoreStage p f o n => some (p, 10, [f] ++ half2 o ++ [n])
  | .readStoreMap p f n => some (p, 10, [2#8] ++ half2 f ++ [n])
  | .readCounters p g => some (p, 11, [g])
  | .setClock p t => some (p, 12, t.bytes)
  | .setRestraint p c m => some (p, 13, [c, m])
  | .halt p => some (p, 14, [])
  | .resume p => some (p, 15, [])
  | .startShow p g r => some (p, 16, [g, r])
  | .stopShow p n => some (p, 17, [n])
  | .erasePage p n => some (p, 18, half2 n)
  | .clearStage p => some (p, 19, [])
  | .loadStage p o d => some (p, 20, half2 o ++ d)
  | .writePage p n => some (p, 21, half2 n)
  | .publish p g f => some (p, 22, [g] ++ half2 f)
  | .remove p g => some (p, 23, [g])
  | .writeCalendar p k e => some (p, 24, [k] ++ e.bytes)
  | .writeSeason p k e => some (p, 25, [k] ++ e.bytes)
  | .writeProfile p k e => some (p, 26, [k] ++ e.bytes)
  | .saveTables p => some (p, 27, [])
  | .enterManual p => some (p, 28, [])
  | .leaveManual p => some (p, 29, [])
  | .freeze p => some (p, 30, [])
  | .thaw p => some (p, 31, [])
  | .jog p a f t r => some (p, 32, [a, f] ++ half2 t ++ [r])
  | .stopAxis p a k => some (p, 33, [a, k])
  | .homeAxis p a => some (p, 34, [a])
  | .testStrike p b v => some (p, 35, [b, v])
  | .writeBell p b c => some (p, 36, [b] ++ c.bytes)
  | .writeAxis p a c => some (p, 37, [a] ++ c.bytes)
  | .writeInterlock p k e => some (p, 38, [k] ++ e.bytes)
  | .clearFaultBell p k n => some (p, 39, [k, n])
  | .clearFaultAxis p n => some (p, 39, [1#8, n])
  | .writeSetup p c => some (p, 40, c.bytes)
  | .resetPart p => some (p, 41, [])
  | .badFrame _ _ | .overrun _ | .clockHold _ | .clockHoldLimit _ | .mainReset _ | .backupReset | .stabilisationEnd
  | .blankTestComplete | .showTick | .motionTick _ | .minuteBoundary | .slewPeriodEnd | .centuryRollover | .startExpired
  | .admissionAttempt | .slotWaitEnd _ | .awaitEnd _ | .waitAxisEnd _ | .waitTimeout _ | .playerRelease _
  | .storeWaitEnd _ | .readGrant | .readComplete | .erasePhaseEnd | .programPhaseEnd | .rollIssue _ | .strikeDue
  | .lateRemoval | .slotGrant | .driveEnd _ | .contactCapture _ _ | .miss _ | .hammerRest _ | .moveDue _ | .moveStart _
  | .interlockTimeout _ | .switchEdge _ _ | .homeNotFound _ | .haltInput _ | .freezeExpired | .mainPowerLoss
  | .resetInputDeasserted => none

/-- The frame of a code and a payload: code, length, payload (R196). -/
def frameBytes (code : Nat) (payload : List Byte) : List Byte :=
  BitVec.ofNat 8 code :: BitVec.ofNat 8 payload.length :: payload

/-- The frame of a request (R196). -/
def frameOf? (i : Instr) : Option (List Byte) := (requestParts? i).map fun r => frameBytes r.2.1 r.2.2

end Sys2Proof
end

