-- ==== Sys2Proof/Machine/Interlock.lean ====
section
/-! DEFINITION. The interlock table (R145 to R150): its three tests, the check at a move's start, the homing precondition. -/

namespace Sys2Proof.Machine

/-- A position lies in a closed range. -/
def inRegion (low high x : Int) : Bool := decide (low ≤ x) && decide (x ≤ high)

/-- The axis is homed (R123): in IDLE and MOVING, and in STOPPING while position valid is yes. -/
def Axis.homed (x : Axis) : Bool :=
  match x.state with
  | .idle | .moving => true
  | .stopping => x.positionValid
  | _ => false

/-- The axis is MOVING, STOPPING or HOMING. -/
def Axis.inMotion (x : Axis) : Bool :=
  match x.state with
  | .moving | .stopping | .homing => true
  | _ => false

/-- IDLE with an empty pending-move slot. -/
def Axis.free (x : Axis) : Bool := x.state == .idle && x.slot.isNone

/-- The axis a stored number names, if any (0 to 7). -/
def State.axisAt? (s : State) (n : Nat) : Option Axis := (finId? 8 n).map s.axis

/-- Entry satisfied (R146). -/
def State.satisfied (s : State) (e : Interlock) : Bool :=
  match s.axisAt? e.condition with
  | none => false
  | some c =>
    c.homed && inRegion e.windowLow e.windowHigh c.position &&
    (c.state != .moving || inRegion e.windowLow e.windowHigh c.target) &&
    (match c.slot with | none => true | some m => inRegion e.windowLow e.windowHigh m.target)

/-- G inside its safe region (R146). -/
def State.inside (s : State) (e : Interlock) : Bool :=
  match s.axisAt? e.guarded with
  | none => false
  | some g => g.positionValid && inRegion e.safeLow e.safeHigh g.position

/-- G committed to leave its safe region (R146). -/
def State.committed (s : State) (e : Interlock) : Bool :=
  match s.axisAt? e.guarded with
  | none => false
  | some g =>
    (g.state == .moving && !inRegion e.safeLow e.safeHigh g.target) ||
    (match g.slot with | none => false | some m => m.held.isSome && !inRegion e.safeLow e.safeHigh m.target)

/-- G is inside its safe region and not committed to leave it. -/
def State.wayIsEmpty (s : State) (e : Interlock) : Bool := s.inside e && !s.committed e

/-- An entry fails the opening check of a move (R147). -/
def State.failsOpening (s : State) (a : AxisId) (target : Int) (e : Interlock) : Bool :=
  e.enabled && e.guarded == a.val && s.inside e && !inRegion e.safeLow e.safeHigh target && !s.satisfied e

/-- An entry fails the closing check of a move (R147). -/
def State.failsClosing (s : State) (a : AxisId) (target : Int) (e : Interlock) : Bool :=
  e.enabled && e.condition == a.val && !inRegion e.windowLow e.windowHigh target && !s.wayIsEmpty e

/-- The first entry in the way of a move; `none` when the check passes (R147). -/
def State.obstacle (s : State) (a : AxisId) (target : Int) : Option InterlockId :=
  allInterlocks.find? fun k => s.failsOpening a target s.axes.interlocks[k] || s.failsClosing a target s.axes.interlocks[k]

/-- The first entry that stands in the way of a homing; `none` when the precondition holds (R150). -/
def State.homingObstacle (s : State) (a : AxisId) : Option InterlockId :=
  allInterlocks.find? fun k =>
    let e := s.axes.interlocks[k]
    e.enabled && ((e.guarded == a.val && !s.satisfied e) || (e.condition == a.val && !s.wayIsEmpty e))

end Sys2Proof.Machine
end

