-- ==== Sys2Proof/Machine/Axis.lean ====
section
/-! DEFINITION. The axis controller (chapter 7) with held moves (R148, R149): moves, the motion arithmetic, steps, stops,
homing and slip. -/

namespace Sys2Proof.Machine

/-! ### What the show engine and the interlock table are told (R143) -/

/-- A player awaits its move on an axis (R52). -/
def Player.awaits (x : Player) (a : AxisId) : Bool :=
  x.awaited == some a && (x.reason == none || x.reason == some .await)

/-- The awaited move of a player on an axis has ended (R52). -/
def State.awaitedEnded (s : State) (p : PlayerId) (a : AxisId) : State :=
  if (s.player p).awaits a then s.modPlayer p fun x => { x with awaitOver := true } else s

/-- The axis's pending-move slot holds a move of the player. -/
def Axis.slotOf (x : Axis) (p : PlayerId) : Bool :=
  match x.slot with
  | some m => m.owner == .player p
  | none => false

/-- A motion of the axis has ended: the awaited move of a player ends, unless it still waits in the slot (R52). -/
def State.motionEnded (s : State) (a : AxisId) : State :=
  allPlayers.foldl (fun s p => if (s.axis a).slotOf p then s else s.awaitedEnded p a) s

/-- An unclaimed axis came to be IDLE with an empty slot, or became UNHOMED: an admission attempt (R40, R143). -/
def State.oweIfFree (s : State) (a : AxisId) : State :=
  let x := s.axis a
  if x.claim.isNone && (x.free || x.state == .unhomed) then s.oweAttempt else s

/-! ### The pending-move slot (R126, R127, R148, R149) -/

/-- The owner of a move is told that it has left its slot without starting. -/
def State.moveDropped (s : State) (a : AxisId) (owner : MoveOwner) : State :=
  let s1 := match owner with
    | .player p => s.awaitedEnded p a
    | .service => s
  (s1.oweIfFree a).oweReeval

/-- The pending move, if any, is discarded (R126). -/
def State.discardMove (s : State) (a : AxisId) (reason : DiscardReason) : State :=
  match (s.axis a).slot with
  | none => s
  | some m =>
    let s1 := (s.modAxis a fun x => { x with slot := none }).report .moveDiscarded (some (.axis a.val))
      (some m.owner.code) (some reason.code)
    (s1.countAxis fun c => { c with movesDiscarded := sat32 c.movesDiscarded }).moveDropped a m.owner

/-- A held move is abandoned at the end of its hold (R149). -/
def State.abandonMove (s : State) (a : AxisId) (m : PendingMove) : State :=
  let s1 := (s.modAxis a fun x => { x with slot := none }).report .interlockTimeout (some (.axis a.val))
    (some m.owner.code) (some m.target)
  (s1.countStage fun c => { c with interlockTimeouts := sat32 c.interlockTimeouts }).moveDropped a m.owner

/-- A pending move is ready to start (R127). -/
def State.ready (s : State) (a : AxisId) (m : PendingMove) : Bool :=
  m.due ≤ s.time.stageTime && (s.axis a).state == .idle && s.stage.mode != .halted &&
  (m.owner != .service || (s.stage.mode == .manual && (s.axis a).claim.isNone))

/-- A move arrives (R130). -/
def State.arrive (s : State) (a : AxisId) : State :=
  let s1 := s.modAxis a fun x =>
    { x with velocity := 0, stepAccumulator := 0, speedRemainder := 0, lastAction := .none, state := .idle, burst := none }
  let x := s1.axis a
  let s2 := (s1.report .axisArrived (some (.axis a.val)) (some x.position) (some (boolCode x.clamped))).countAxis
    fun c => { c with arrivals := sat32 c.arrivals, clamped := if x.clamped then sat32 c.clamped else c.clamped }
  (((s2.motionEnded a).oweReeval).oweTest a).oweIfFree a

/-- The direction from one position to another; `none` when they are equal. -/
def directionTo (start target : Int) : Option Direction :=
  if start < target then some .positive else if target < start then some .negative else none

/-- A ready move that passes the check starts (R127). -/
def State.startMove (s : State) (a : AxisId) (m : PendingMove) : State :=
  let s1 := (s.modAxis a fun x =>
    { x with
      slot := none, target := m.target, clamped := m.clamped, owner := m.owner, profile := s.axes.profiles[m.profile],
      velocity := 0, stepAccumulator := 0, speedRemainder := 0, lastAction := .none,
      direction := (directionTo x.position m.target).getD x.direction, state := .moving }).countAxis
    fun c => { c with movesStarted := sat32 c.movesStarted }
  if (s1.axis a).position = m.target then s1.arrive a else s1

/-- A ready move fails the check: it is held, and reported at its first failure (R148). -/
def State.holdMove (s : State) (a : AxisId) (m : PendingMove) (e : InterlockId) : State :=
  match m.held with
  | some _ => s
  | none =>
    ((s.modAxis a fun x => { x with slot := some { m with held := some s.time.stageTime } }).report .moveHeld
      (some (.axis a.val)) (some m.owner.code) (some e.val)).countStage fun c => { c with movesHeld := sat32 c.movesHeld }

/-- The pending move is tested for readiness and, if ready, checked (R127). -/
def State.testMove (s : State) (a : AxisId) : State :=
  match (s.axis a).slot with
  | none => s
  | some m =>
    if s.ready a m then
      match s.obstacle a m.target with
      | none => s.startMove a m
      | some e => s.holdMove a m e
    else s

/-- A held move is tested again (R148). -/
def State.retestHeld (s : State) (a : AxisId) : State :=
  match (s.axis a).slot with
  | some m => if m.held.isSome then s.testMove a else s
  | none => s

/-- The tests an event owes: the held moves in ascending axis number (R148), then the pending moves of axes that came to
rest (R127), until nothing is owed. DESIGN CHOICE (unsafe, log 23): that order of the two kinds, and ascending axis number in
the second. -/
def pumpMoves : Nat → State → State
  | 0, s => s
  | n + 1, s =>
    if s.todo.reeval then
      pumpMoves n (allAxes.foldl State.retestHeld (s.modTodo fun t => { t with reeval := false }))
    else
      match allAxes.find? fun a => s.todo.test[a] with
      | some a => pumpMoves n ((s.modTodo fun t => { t with test := t.test.set a false }).testMove a)
      | none => s

/-- The end of an event: every test it owes is made. -/
def State.close (s : State) : State := pumpMoves Config.moveFuel s

/-- Places a move in an empty slot (R126): the target is clamped to the soft limits, and readiness is tested. -/
def State.placeMove (s : State) (a : AxisId) (target : Int) (profile : ProfileId) (due : Nat) (owner : MoveOwner) :
    State :=
  let c := (s.axis a).config
  let t := max c.softLow (min target c.softHigh)
  (s.modAxis a fun x =>
    { x with slot := some { target := t, clamped := t != target, profile := profile, due := due, owner := owner,
                            held := none } }).testMove a

/-! ### Stops (R131) -/

/-- A stop completes (R131): the axis enters IDLE, or UNHOMED when its position is not valid. DESIGN CHOICE (unsafe, log 23):
AXIS_STOPPED stands before the MOVE_DISCARDED of a pending move that an UNHOMED axis discards. -/
def State.completeStop (s : State) (a : AxisId) : State :=
  let x := s.axis a
  let cause := (x.stop.map fun k => (k.cause.code : Int))
  let s1 := s.modAxis a fun x =>
    { x with velocity := 0, stepAccumulator := 0, speedRemainder := 0, lastAction := .none, stop := none, burst := none,
             state := if x.positionValid then .idle else .unhomed }
  let s2 := (s1.report .axisStopped (some (.axis a.val)) (if x.positionValid then some x.position else none)
    cause).countAxis fun c => { c with stops := sat32 c.stops }
  let s3 := if x.positionValid then s2 else s2.discardMove a .unavailable
  (((s3.motionEnded a).oweReeval).oweTest a).oweIfFree a

/-- An emergency stop has reached the soft limit: the axis faults with reason LIMIT (R131). DESIGN CHOICE (unsafe, log 23):
AXIS_FAULT stands before the MOVE_DISCARDED of its pending move. -/
def State.limitFault (s : State) (a : AxisId) : State :=
  let s1 := s.modAxis a fun x =>
    { x with velocity := 0, stop := none, burst := none, state := .faulted, positionValid := false, fault := some .limit }
  let s2 := (s1.report .axisFault (some (.axis a.val)) (some FaultReason.limit.code) (some (s.axis a).position)).countAxis
    fun c => { c with limitFaults := sat32 c.limitFaults }
  (s2.discardMove a .unavailable).oweReeval

/-- Steps of the tick that are still to be issued no longer end the motion (log 4). -/
def Burst.goOn (b : Burst) : Burst := { b with ends := .none }

/-- A stop is asked of an axis that is MOVING or STOPPING (R131); on any other axis nothing changes. -/
def State.stopMotion (s : State) (a : AxisId) (kind : StopKind) (cause : StopCause) : State :=
  let x := s.axis a
  match x.state with
  | .moving =>
    let s1 := s.modAxis a fun x =>
      { x with state := .stopping, stop := some { kind := kind, cause := cause }, lastAction := .decelerate,
               speedRemainder := if x.lastAction = .accelerate then 0 else x.speedRemainder,
               burst := x.burst.map Burst.goOn }
    if x.velocity = 0 then s1.completeStop a else s1
  | .stopping =>
    match x.stop with
    | some k =>
      if k.kind = .emergency ∧ kind = .controlled then s
      else s.modAxis a fun x =>
        { x with stop := some { kind := kind, cause := cause },
                 burst := if k.kind = kind then x.burst else x.burst.map Burst.goOn }
    | none => s
  | _ => s

/-! ### The outputs (R124) -/

/-- What an output pin does: the part drives a level, or drives none (before page 7, or the high level in OPEN_DRAIN). -/
def AxisConfig.pin (c : AxisConfig) (l : Level) : Option Level :=
  match c.pinMode.act .pushPull .openDrain, l with
  | .openDrain, .high => none
  | _, l => some l

/-- The level the step output of an axis drives; `none` while it is undriven or released (R124, R129). -/
def State.stepOutput (s : State) (a : AxisId) : Option Level :=
  let x := s.axis a
  if s.hammer.outputsOn then x.config.pin (outputLevel (x.config.stepPolarity.act .activeHigh .activeLow) x.pulse) else none

/-- The level for motion in a direction (R122). -/
def directionLevel (p : DirectionPolarity) (d : Direction) : Level :=
  match p, d with
  | .highPositive, .positive | .lowPositive, .negative => .high
  | _, _ => .low

/-- The level the direction output of an axis drives; `none` while it is undriven or released (R124). -/
def State.directionOutput (s : State) (a : AxisId) : Option Level :=
  let x := s.axis a
  if s.hammer.outputsOn then
    x.config.pin (directionLevel (x.config.directionPolarity.act .highPositive .lowPositive) x.direction)
  else none

/-! ### Homing (R132 to R134) -/

/-- The home direction of an axis. -/
def AxisConfig.homeDir (c : AxisConfig) : Direction := c.homeDirection.act .negative .positive

def Direction.opposite : Direction → Direction
  | .negative => .positive
  | .positive => .negative

def Direction.sign : Direction → Int
  | .negative => -1
  | .positive => 1

/-- A level of the home switch is the made level (R122). -/
def AxisConfig.made (c : AxisConfig) (l : Level) : Bool := c.switchActive.act .high .low == l

/-- Homing begins (R132). -/
def State.beginHoming (s : State) (a : AxisId) (origin : HomingOrigin) : State :=
  let made := (s.axis a).config.made s.pins.switch[a]
  (s.modAxis a fun x =>
    { x with positionValid := false, passage := none, stepAccumulator := 0, state := .homing,
             homing := some { phase := if made then .backoff else .search, travel := 0, origin := origin },
             direction := if made then x.config.homeDir.opposite else x.config.homeDir }).modStage
    fun g => { g with startup := g.startup.filter (· != a) }

/-- An automatic homing request, from the show engine or the start-up list (R134): nothing changes when it cannot begin. -/
def State.requestHoming (s : State) (a : AxisId) : State :=
  let x := s.axis a
  if x.state = .unhomed ∧ x.claim = none ∧ s.stage.mode ≠ .halted ∧ s.homingObstacle a = none then
    s.beginHoming a .automatic
  else s

/-- Homing completes at the active edge of SEARCH (R132). DESIGN CHOICE (unsafe, log 23): the start-up homing list is tried
again (R134) before the held moves are tested (R148), which the event owes and `settle` brings about. -/
def State.completeHoming (s : State) (a : AxisId) (travel : Nat) : State :=
  let s1 := s.modAxis a fun x =>
    { x with position := x.config.home, positionValid := true, velocity := 0, stepAccumulator := 0, speedRemainder := 0,
             fault := none, homing := none, burst := none, state := .idle, slipDue := false,
             lastStep := some (x.config.home - x.config.homeDir.sign, x.config.home),
             passage := some { side := match x.config.homeDir with | .negative => .high | .positive => .low,
                               edgeSeen := true } }
  let s2 := (s1.report .axisHomed (some (.axis a.val)) (some (s.axis a).config.home) (some travel)).countAxis
    fun c => { c with homings := sat32 c.homings }
  let s3 := (((s2.motionEnded a).oweReeval).oweTest a).oweAttempt
  s3.stage.startup.foldl State.requestHoming s3

/-- A homing ends before its edge (R133). -/
def State.endHoming (s : State) (a : AxisId) (cause : StopCause) : State :=
  let s1 := s.modAxis a fun x => { x with state := .unhomed, homing := none, burst := none }
  let s2 := (s1.report .axisStopped (some (.axis a.val)) none (some cause.code)).countAxis
    fun c => { c with stops := sat32 c.stops }
  (s2.oweReeval).oweIfFree a

/-- A homing has used up its search travel (R133). -/
def State.failHoming (s : State) (a : AxisId) (travel : Nat) : State :=
  let s1 := s.modAxis a fun x => { x with state := .faulted, fault := some .homeNotFound, homing := none, burst := none }
  ((s1.report .axisFault (some (.axis a.val)) (some FaultReason.homeNotFound.code) (some travel)).countAxis
    fun c => { c with homeNotFound := sat32 c.homeNotFound }).oweReeval

/-! ### Slip (R135, R136) -/

/-- The bounds of the slip band (R135). -/
def AxisConfig.bandLow (c : AxisConfig) : Int := c.home - c.slipTolerance
def AxisConfig.bandHigh (c : AxisConfig) : Int := c.home + c.slipTolerance

def AxisConfig.inBand (c : AxisConfig) (x : Int) : Bool := inRegion c.bandLow c.bandHigh x

/-- A step is within the band when its start or its end lies in it (R135). -/
def AxisConfig.stepInBand (c : AxisConfig) (step : Int × Int) : Bool := c.inBand step.1 || c.inBand step.2

/-- What a step does to the passage (R135); the flag is a crossing with no edge seen so far. -/
def passageAfter (c : AxisConfig) (step : Int × Int) (p : Option Passage) : Option Passage × Bool :=
  match p with
  | none =>
    if c.inBand step.2 then (some { side := if step.1 < step.2 then .low else .high, edgeSeen := false }, false)
    else (none, false)
  | some q =>
    if c.inBand step.2 then (some q, false)
    else
      let exit : EntrySide := if step.2 < c.bandLow then .low else .high
      if exit = q.side ∨ q.edgeSeen then (none, false) else (some q, true)

/-- Slip is found (R136). -/
def State.slip (s : State) (a : AxisId) : State :=
  let s1 := s.modAxis a fun x =>
    { x with positionValid := false, passage := none, fault := some .slip, slipDue := false,
             burst := x.burst.map Burst.goOn }
  let s2 := (s1.report .axisFault (some (.axis a.val)) (some FaultReason.slip.code) (some (s.axis a).position)).countAxis
    fun c => { c with slips := sat32 c.slips }
  let s3 := s2.discardMove a .unavailable
  match (s3.axis a).state with
  | .idle =>
    let s4 := ((s3.modAxis a fun x => { x with state := .unhomed }).report .axisStopped (some (.axis a.val)) none
      (some StopCause.slip.code)).countAxis fun c => { c with stops := sat32 c.stops }
    ((s4.motionEnded a).oweReeval).oweIfFree a
  | _ => (s3.stopMotion a .emergency .slip).oweReeval

/-! ### The motion tick (R128, R129, R131, R132) -/

/-- A speed change by `rate` (steps/s²) over one tick: whole steps/s, and the remainder carried (R128 step 3). -/
def speedStep (rate remainder : Nat) : Nat × Nat :=
  let r := remainder + rate % 1000
  if 1000 ≤ r then (rate / 1000 + 1, r - 1000) else (rate / 1000, r)

/-- The decelerating change (R128 step 3, R131). -/
def Axis.decelerate (x : Axis) (rate : Nat) : Axis :=
  let c := speedStep rate (if x.lastAction = .accelerate then 0 else x.speedRemainder)
  { x with velocity := x.velocity - c.1, speedRemainder := c.2, lastAction := .decelerate }

/-- The accelerating change (R128 step 3). -/
def Axis.accelerate (x : Axis) : Axis :=
  let c := speedStep x.profile.acceleration (if x.lastAction = .decelerate then 0 else x.speedRemainder)
  { x with velocity := min (x.velocity + c.1) x.profile.maxSpeed, speedRemainder := c.2, lastAction := .accelerate }

/-- The distance left to the target (R128 step 1). -/
def Axis.remaining (x : Axis) : Nat := (x.target - x.position).natAbs

/-- Steps 2 and 3 of R128: the choice and the speed change. -/
def Axis.changeSpeed (x : Axis) : Axis :=
  if 2 * x.profile.deceleration * x.remaining ≤ x.velocity * x.velocity then x.decelerate x.profile.deceleration
  else if x.velocity < x.profile.maxSpeed then x.accelerate
  else x

/-- Step 4 of R128: while distance remains, velocity is at least the floor speed. -/
def Axis.floorSpeed (x : Axis) (remaining : Nat) : Axis :=
  if 0 < remaining then { x with velocity := max x.velocity (min 50 x.profile.maxSpeed) } else x

/-- Steps 2 to 4 of R128: choice, speed change, floor speed. -/
def Axis.speedTick (x : Axis) : Axis := x.changeSpeed.floorSpeed x.remaining

/-- Step 5 of R128: the steps of the tick, the accumulator keeping the remainder. -/
def Axis.takeSteps (x : Axis) (speed : Nat) : Axis × Nat :=
  ({ x with stepAccumulator := (x.stepAccumulator + speed) % 1000 }, (x.stepAccumulator + speed) / 1000)

/-- The steps to the soft limit in the direction of travel (R131). -/
def Axis.room (x : Axis) : Nat :=
  match x.direction with
  | .positive => (x.config.softHigh - x.position).toNat
  | .negative => (x.position - x.config.softLow).toNat

/-- The axis after the arithmetic of a motion tick, with its burst of steps (R128, R131, R132). -/
def Axis.motionArith (x : Axis) : Axis :=
  match x.state with
  | .moving =>
    let (y, n) := x.speedTick.takeSteps x.speedTick.velocity
    if x.remaining ≤ n then { y with burst := some { total := x.remaining, issued := 0, spacing := n, ends := .arrive } }
    else { y with burst := some { total := n, issued := 0, spacing := n, ends := .none } }
  | .stopping =>
    let emergency := x.stop.any (fun k => k.kind == StopKind.emergency)
    let z := x.decelerate (if emergency then x.config.emergencyDeceleration else x.profile.deceleration)
    let (y, n) := z.takeSteps z.velocity
    let burst : Burst :=
      if emergency then
        if x.positionValid && x.room < n then { total := x.room, issued := 0, spacing := n, ends := .limit }
        else { total := n, issued := 0, spacing := n, ends := if y.velocity = 0 then .complete else .none }
      else if x.remaining < n then { total := x.remaining, issued := 0, spacing := n, ends := .complete }
      else { total := n, issued := 0, spacing := n, ends := if y.velocity = 0 then .complete else .none }
    { y with burst := some burst }
  | .homing =>
    let (y, n) := x.takeSteps x.config.homeSpeed
    let left := match x.homing with | some h => x.config.searchTravel - h.travel | none => 0
    { y with burst := some { total := min n left, issued := 0, spacing := n, ends := .none } }
  | _ => x

/-- The end of a burst: once its last step is issued and no slip is open, its motion ends as the tick found (R130, R131).
DESIGN CHOICE (unsafe, log 5): a last step that also leaves the slip band with no edge seen does not arrive, complete a stop
or fault with LIMIT; the axis slips as it moves, and the emergency stop runs past that step. -/
def State.finishBurst (s : State) (a : AxisId) : State :=
  let x := s.axis a
  match x.burst with
  | none => s
  | some b =>
    if b.total ≤ b.issued ∧ ¬ x.slipDue then
      let s1 := s.modAxis a fun x => { x with burst := none }
      match b.ends with
      | .none => s1
      | .arrive => s1.arrive a
      | .complete => s1.completeStop a
      | .limit => s1.limitFault a
    else s

/-- One step pulse (R129): the position moves by one, or the travel of a homing rises by one. A position past −32768 or
+32767 is kept as it is (log 8). -/
def Axis.pulseStep (x : Axis) : Axis :=
  let y : Axis := { x with pulse := true, burst := x.burst.map fun (b : Burst) => { b with issued := b.issued + 1 } }
  match x.state with
  | .homing => { y with homing := x.homing.map fun (h : Homing) => { h with travel := h.travel + 1 } }
  | _ =>
    let step := (x.position, x.position + x.direction.sign)
    let z := { y with position := step.2, lastStep := some step }
    if x.positionValid then
      let r := passageAfter x.config step x.passage
      { z with passage := r.1, slipDue := r.2 }
    else z

/-- The hammer ticks from its motion tick to the next step of a burst (R129). -/
def Burst.nextAt (b : Burst) : Nat := b.issued * 100 / b.spacing

/-- Issues the next step of an axis's burst if it falls on this hammer tick (R129). -/
def State.stepAxis (s : State) (a : AxisId) : State :=
  match (s.axis a).burst with
  | some b =>
    if b.issued < b.total ∧ b.nextAt ≤ s.time.motionPhase then (s.modAxis a Axis.pulseStep).finishBurst a
    else s.finishBurst a
  | none => s

/-- The motion tick of one axis (R128, R131, R132), its first step included. -/
def State.motionAxis (s : State) (a : AxisId) : State :=
  if (s.axis a).inMotion then (s.modAxis a Axis.motionArith).stepAxis a else s

/-- What a hammer tick does at an axis before anything else: the step pulse of the last tick ends, and a slip found at the
last step without its edge is taken (log 5). -/
def State.axisHammerTick (s : State) (a : AxisId) : State :=
  let s1 := s.modAxis a fun x => { x with pulse := false }
  let s2 := if (s1.axis a).slipDue then s1.slip a else s1
  s2.stepAxis a

/-! ### The home switch (R124) -/

/-- A switch edge of a homed axis (R135). -/
def State.homedEdge (s : State) (a : AxisId) : State :=
  let x := s.axis a
  match x.lastStep with
  | none => s
  | some step =>
    if x.config.stepInBand step then
      (s.modAxis a fun x =>
        if x.slipDue then { x with passage := none, slipDue := false }
        else { x with passage := x.passage.map fun p => { p with edgeSeen := true } }).finishBurst a
    else s.slip a

/-- The home-switch input is sampled at a level (R124, R132, R135). DESIGN CHOICE (unsafe, log 30): R132 turns an axis whose
BACKOFF ends to SEARCH from the next motion tick; here the phase and the direction change at the inactive edge and the steps
left in that tick are dropped, so that an active edge before the next motion tick completes the homing. -/
def State.sampleSwitch (s : State) (a : AxisId) (level : Level) : State :=
  let prev := s.pins.switch[a]
  let s1 := { s with pins := { s.pins with switch := s.pins.switch.set a level } }
  let x := s.axis a
  if s.running && prev != level then
    match x.state, x.homing with
    | .homing, some h =>
      match h.phase, x.config.made level with
      | .search, true => s1.completeHoming a h.travel
      | .backoff, false =>
        s1.modAxis a fun x =>
          { x with homing := some { h with phase := .search }, stepAccumulator := 0, burst := none,
                   direction := x.config.homeDir }
      | _, _ => s1
    | _, _ => if x.homed then s1.homedEdge a else s1
  else s1

/-! ### Service requests' shared parts -/

/-- The axis controller's part of entering HALTED (R137): every pending move is discarded, then every motion stopped, then
every homing ended, each in ascending axis number. -/
def State.haltAxes (s : State) : State :=
  let s1 := allAxes.foldl (fun s a => s.discardMove a .halt) s
  let s2 := allAxes.foldl (fun s a => s.stopMotion a .emergency .halt) s1
  allAxes.foldl (fun s a => if (s.axis a).state = .homing then s.endHoming a .halt else s) s2

/-- A pending service move is discarded on LEAVE_MANUAL (R138). -/
def State.dropServiceMove (s : State) (a : AxisId) : State :=
  match (s.axis a).slot with
  | some m => if m.owner = MoveOwner.service then s.discardMove a .mode else s
  | none => s

/-- A service move under way is stopped on LEAVE_MANUAL (R138). -/
def State.stopServiceMove (s : State) (a : AxisId) : State :=
  if (s.axis a).state = .moving ∧ (s.axis a).owner = .service then s.stopMotion a .controlled .mode else s

/-- A homing begun by HOME_AXIS ends on LEAVE_MANUAL (R138). -/
def State.endServiceHoming (s : State) (a : AxisId) : State :=
  if (s.axis a).state = .homing ∧ (s.axis a).homing.any (fun h => h.origin == .homeAxis) = true then s.endHoming a .mode
  else s

/-- The service motion of MANUAL ends on LEAVE_MANUAL (R138): the pending moves, then the moves, then the homings, each in
ascending axis number. -/
def State.endServiceMotion (s : State) : State :=
  allAxes.foldl State.endServiceHoming (allAxes.foldl State.stopServiceMove (allAxes.foldl State.dropServiceMove s))

end Sys2Proof.Machine
end

