-- ==== Sys2Proof/Machine/Channel.lean ====
section
/-! DEFINITION. The fetch channels (chapter 4), with the suspending, resuming and beginning of array phases they and the
store share (R163, R165). -/

namespace Sys2Proof.Machine

/-! ### Cue records (R197) -/

/-- A record as read. -/
inductive Record where
  | play (delta : Nat) (cue : Cue)
  | loopBegin (delta count : Nat)
  | loopEnd (delta : Nat)
  | noKind
deriving DecidableEq, Repr

/-- The record eight bytes hold (R197). -/
def recordOf (b : List Byte) : Record :=
  let f (k : Nat) : Nat := (b.getD k 0#8).toNat
  let delta := f 1 + 256 * f 2
  match f 0 with
  | 1 => .play delta (.strike (f 3) (f 4))
  | 2 => .play delta (.roll (f 3) (f 4) (f 5) (f 6) (f 7))
  | 3 => .play delta (.move (f 3) (ofTwos [b.getD 4 0#8, b.getD 5 0#8]) (f 6) (f 7))
  | 4 => .play delta (.waitAxis (f 3) (f 4))
  | 5 => .play delta (.mark (f 3 + 256 * f 4))
  | 6 => .loopBegin delta (f 3)
  | 7 => .loopEnd delta
  | 8 => .play delta .endShow
  | _ => .noKind

/-- Page and byte offset of a record (R64), for an index behind the last record too (log 22). -/
def recordAt (first i : Nat) : Nat × Nat :=
  if i < 60 then (first, 32 + 8 * i) else (first + 1 + (i - 60) / 64, 8 * ((i - 60) % 64))

/-- The records a version's script holds from an index on. -/
def recordsFrom (n : Nvm) (first i count : Nat) : List Record :=
  (List.range count).map fun k =>
    let at_ := recordAt first (i + k)
    recordOf (n.bytes (512 * at_.1 + at_.2) 8)

/-! ### Taking a block (R66, R68 to R73) -/

/-- The fill of a channel (R63). -/
def Channel.fill (c : Channel) : Nat := c.fifo.length

/-- Cues remaining (R63). -/
def Channel.remaining (c : Channel) : Nat := c.cueCount - c.next

/-- A channel needs a block (R66). -/
def Channel.needs (c : Channel) : Bool := c.state == .fetching && c.read == .none && c.fill ≤ Config.blockSize

/-- The length of the next block (R66). -/
def Channel.blockLength (c : Channel) : Nat :=
  min (min Config.blockSize (if c.next < 60 then 60 - c.next else 64 - (c.next - 60) % 64)) c.remaining

/-- A script fault: an END of delta 0 is put behind the cues already there (R73). -/
def Channel.scriptFault (c : Channel) : Channel :=
  { c with fifo := c.fifo ++ [{ delta := 0, cue := .endShow }], loops := [], next := c.cueCount, state := .atEnd }

/-- The record at the last index may only be END, and END only there (R73). -/
def Record.misplaced (r : Record) (last : Bool) : Bool :=
  match r with
  | .play _ .endShow => !last
  | _ => last

/-- The channel takes records in index order; the second part is the index of a faulty record (R69 to R73). -/
def takeRecords : List Record → Channel → Channel × Option Nat
  | [], c => (c, none)
  | r :: rs, c =>
    if r.misplaced (c.next + 1 == c.cueCount) then (c.scriptFault, some c.next)
    else
      match r with
      | .noKind => (c.scriptFault, some c.next)
      | .play d .endShow =>
        ({ c with fifo := c.fifo ++ [{ delta := d, cue := .endShow }], next := c.next + 1, state := .atEnd }, none)
      | .play d q => takeRecords rs { c with fifo := c.fifo ++ [{ delta := d, cue := q }], next := c.next + 1 }
      | .loopBegin d n =>
        if d = 0 ∧ n ≠ 0 ∧ c.loops.length < Config.loopDepth then
          takeRecords rs { c with loops := { returnIndex := c.next + 1, passesLeft := n - 1 } :: c.loops,
                                  next := c.next + 1 }
        else (c.scriptFault, some c.next)
      | .loopEnd d =>
        match c.loops with
        | [] => (c.scriptFault, some c.next)
        | e :: es =>
          if d ≠ 0 then (c.scriptFault, some c.next)
          else if 0 < e.passesLeft then
            ({ c with next := e.returnIndex, loops := { e with passesLeft := e.passesLeft - 1 } :: es }, none)
          else takeRecords rs { c with loops := es, next := c.next + 1 }

/-! ### The array and the channels (R67, R163, R165) -/

/-- No channel asks for a suspend. -/
def State.noneAsking (s : State) : Bool := allPlayers.all fun p => !(s.channel p).asking

/-- A channel's read becomes QUEUED (R67). -/
def State.queueRead (s : State) (p : PlayerId) (asking : Bool) : State :=
  s.modChannel p fun c => { c with state := .fetching, read := .queued, asking := asking }

/-- A channel enters WAITING_STORE (R67). -/
def State.waitStore (s : State) (p : PlayerId) : State :=
  s.modChannel p fun c => { c with state := .waitingStore, read := .none, asking := false, storeWaits := sat32 c.storeWaits }

/-- The running erase is suspended (R165). -/
def State.suspendErase (s : State) (left : Nat) : State :=
  (s.modStore fun t => { t with array := .suspended left }).countStore
    fun c => { c with eraseSuspends := sat32 c.eraseSuspends }

/-- What a channel that needs a block does by the table of R67. -/
def State.placeRead (s : State) (p : PlayerId) : State :=
  let low := (s.channel p).fill ≤ Config.suspendFill
  match s.store.array with
  | .idle => s.queueRead p false
  | .suspended _ => s.queueRead p low
  | .erasing left => if low then (s.suspendErase left).queueRead p true else s.waitStore p
  | .programming _ => s.waitStore p

/-- The channel tests its need (R66). -/
def State.testNeed (s : State) (p : PlayerId) : State := if (s.channel p).needs then s.placeRead p else s

/-- A channel in WAITING_STORE would be QUEUED now (R67). -/
def State.storeOpen (s : State) (p : PlayerId) : Bool :=
  (s.channel p).state == .waitingStore &&
  (match s.store.array with
    | .idle | .suspended _ => true
    | .erasing _ => (s.channel p).fill ≤ Config.suspendFill
    | .programming _ => false)

/-- The tests of a channel whose player dispatches a cue: its need when it is FETCHING (R66), the store when it is in
WAITING_STORE (R67). -/
def State.testDispatch (s : State) (p : PlayerId) : State :=
  if (s.channel p).needs || s.storeOpen p then s.placeRead p else s

/-- A QUEUED channel re-tests as an erase or program phase begins or an erase resumes (R68, R163). Every such channel
re-tests against that phase: an erase that an earlier one of them has just suspended counts as running, so that each at fill
4 or less asks and each other one waits, in whatever order they are taken (log 22). -/
def State.retestQueued (s : State) (p : PlayerId) : State :=
  let low := (s.channel p).fill ≤ Config.suspendFill
  if (s.channel p).read = .queued then
    match s.store.array with
    | .erasing left => if low then (s.suspendErase left).queueRead p true else s.waitStore p
    | .suspended _ => if low then s.queueRead p true else s.waitStore p
    | .programming _ => s.waitStore p
    | .idle => s
  else s

/-- A waiting phase begins once the read path is FREE (R163). -/
def State.beginPhase (s : State) : State :=
  match s.store.waiting, s.store.path with
  | some k, none =>
    allPlayers.foldl State.retestQueued (s.modStore fun t =>
      { t with waiting := none,
               array := match k with | .erase => .erasing Config.eraseTicks | .program => .programming Config.programTicks })
  | _, _ => s

/-- The operation reaches an erase or program phase (R163). -/
def State.enterPhase (s : State) (k : PhaseKind) : State := (s.modStore fun t => { t with waiting := some k }).beginPhase

/-- A suspended erase resumes once no channel is asking and no read is in flight (R165). -/
def State.resumeErase (s : State) : State :=
  match s.store.array, s.store.path with
  | .suspended left, none =>
    if s.noneAsking then
      allPlayers.foldl State.retestQueued (s.modStore fun t => { t with array := .erasing left })
    else s
  | _, _ => s

/-! ### The head cue (R49, R56) -/

/-- The dispatch threshold of a cue due at `due` (R49). -/
def Cue.threshold (c : Cue) (due : Nat) : Int :=
  match c with
  | .strike _ _ | .roll _ _ _ _ _ | .move _ _ _ _ => (due : Int) - Config.lookaheadMs
  | .waitAxis _ _ | .mark _ | .endShow => due

/-- The cue that has become the head takes its due time (R49); `lateCounts`: it entered an empty FIFO (R56). DESIGN CHOICE
(unsafe, log 8): R46 gives a due time the range to 2^32 − 1 ms and no rule for a sum beyond it, which loops can reach; here
last due and head due go on unbounded. -/
def State.takeHead (s : State) (p : PlayerId) (lateCounts : Bool) : State :=
  match (s.channel p).fifo with
  | q :: _ =>
    s.modPlayer p fun x =>
      let due := x.lastDue + q.delta
      { x with lastDue := due, headDue := due,
               headStarved := lateCounts && x.state == .running && decide (q.cue.threshold due < x.showTime) }
  | [] => s

/-! ### Completion of a block (R68), starting and stopping (R65, R72, R74) -/

/-- A block read of a channel completes (R68), and a cue that enters an empty FIFO becomes the head (R49); the records of a
stopped channel are dropped unread, and its blocks read do not rise (R74, log 22). -/
def State.blockComplete (s : State) (p : PlayerId) : State :=
  let c := s.channel p
  if c.read = .inFlight then
    let r := takeRecords (recordsFrom s.store.nvm c.firstPage c.next c.blockLength) c
    let s1 := s.modChannel p fun _ =>
      { r.1 with read := .none, asking := false, blocksRead := sat32 r.1.blocksRead }
    let s2 := if c.fifo = [] then s1.takeHead p true else s1
    let s3 := match r.2 with
      | some i => s2.report .scriptFault (some (.player p.val)) (some i) (some (s.player p).programme)
      | none => s2
    s3.testNeed p
  else s

/-- A channel starts on the version its player pinned (R65). -/
def State.startChannel (s : State) (p : PlayerId) (admission : Nat) (v : Version) : State :=
  (s.modChannel p fun _ =>
    { state := .fetching, admission := admission, firstPage := v.firstPage, pageCount := v.pageCount,
      cueCount := v.cueCount, next := 0, loops := [], fifo := [], read := .none, blocksRead := 0, storeWaits := 0,
      asking := false }).testNeed p

/-- A channel stops (R72, R74): a read in flight runs on at the store, and a suspend it asked for is withdrawn. DESIGN CHOICE
(unsafe, log 22): the script, next record, cues remaining and fetch address, of which R72 and R74 say nothing, stay those of
the show that has ended until the next admission. -/
def State.stopChannel (s : State) (p : PlayerId) : State :=
  (s.modChannel p fun c =>
    { c with state := .idle, fifo := [], loops := [], read := .none, asking := false }).resumeErase

end Sys2Proof.Machine
end

