-- ==== Sys2Proof/Machine/Show.lean ====
section
/-! DEFINITION. The show engine (chapter 3): the start queue, admission, claims, preemption, the show tick, dispatch,
aborts and release. -/

namespace Sys2Proof.Machine

/-! ### The start queue (R36 to R38) -/

/-- Places an entry behind every entry of equal or higher priority (R37). -/
def placeStart (x : StartEntry) : List StartEntry → List StartEntry
  | [] => [x]
  | e :: q => if x.priority ≤ e.priority then e :: placeStart x q else x :: e :: q

/-- An arrival: the entry joins the queue, and an attempt is owed (R37); `none` when the queue is full. -/
def State.arriveStart (s : State) (p : ProgId) (v : Version) (priority : Nat) (source : Source) (stamp : Option Nat) :
    Option State :=
  if s.shows.queue.length < Config.startCapacity then
    let e : StartEntry :=
      { programme := p, priority := priority, source := source, stamp := stamp, arrival := s.time.stageTime,
        expiry := s.time.stageTime + v.latestStart * 100000 }
    some (((s.modShows fun b => { b with queue := placeStart e b.queue }).countShow
      fun c => { c with arrivals := sat32 c.arrivals }).oweAttempt)
  else none

/-- An offer refused at a full queue (R61). -/
def State.refuseStart (s : State) : State := s.countShow fun c => { c with refusedFull := sat32 c.refusedFull }

/-- An entry leaves the queue as expired (R38). -/
def State.expireStart (s : State) (e : StartEntry) : State :=
  (((s.modShows fun b => { b with queue := b.queue.erase e }).report .startExpired (some (.programme e.programme.number))
    (some e.source.code) (some e.priority)).countShow fun c => { c with expired := sat32 c.expired }).oweAttempt

/-- START_FAILED is reported for an entry: reason 0 NOT_FOUND, 1 HALTED (R38, R40). -/
def State.failStart (s : State) (halted : Bool) (e : StartEntry) : State :=
  (s.report .startFailed (some (.programme e.programme.number)) (some (boolCode halted)) (some e.source.code)).countShow
    fun c => if halted then { c with failedHalted := sat32 c.failedHalted }
             else { c with failedNotFound := sat32 c.failedNotFound }

/-- The flush of entering HALTED (R38). -/
def State.flushStarts (s : State) : State :=
  (s.shows.queue.foldl (State.failStart · true) s).modShows fun b => { b with queue := [] }

/-! ### Admission (R40 to R44) -/

/-- The axis is in a mask. -/
def inMask (m : BitVec 8) (a : AxisId) : Bool := m.getLsbD a.val

/-- The lowest-numbered IDLE player. -/
def State.idlePlayer? (s : State) : Option PlayerId := allPlayers.find? fun p => (s.player p).state == .idle

/-- Conditions 4 and 5 of R41: mode and expiry. -/
def State.startTimely (s : State) (e : StartEntry) : Bool :=
  (s.stage.mode == .auto || (s.stage.mode == .manual && e.source == .service)) && s.time.stageTime ≤ e.expiry

/-- Condition 3 of R41 for one axis. -/
def State.axisOpen (s : State) (a : AxisId) : Bool := (s.axis a).claim.isNone && (s.axis a).free

/-- An entry whose programme is live at `v` can start, a player being IDLE (R41). -/
def State.canStart (s : State) (e : StartEntry) (v : Version) : Bool :=
  s.startTimely e && allAxes.all fun a => !inMask v.axisMask a || s.axisOpen a

/-- The player claims the axes of a mask (R44, R45). -/
def State.claimAxes (s : State) (p : PlayerId) (mask : BitVec 8) : State :=
  allAxes.foldl (fun s a => if inMask mask a then s.modAxis a fun x => { x with claim := some p } else s) s

/-- An entry is admitted on a player (R44, R65, R170), with a show time of 0 while it primes (log 27). -/
def State.admitStart (s : State) (e : StartEntry) (v : Version) (p : PlayerId) : State :=
  let n := s.shows.admissions + 1
  let s1 := (s.modShows fun b => { b with admissions := n }).countShow fun c => { c with admitted := sat32 c.admitted }
  let s2 := s1.modPlayer p fun _ =>
    { Player.initial with state := .priming, programme := e.programme.number, version := v.version,
                          priority := e.priority, source := e.source.code, admission := n }
  let s3 := (s2.claimAxes p v.axisMask).modDir e.programme fun d =>
    { d with live := d.live.map fun (w : Version) => { w with references := w.references + 1 } }
  s3.startChannel p n v

/-- The walk of the queue: the state, and the entries that stay (R40). -/
def walkStarts : List StartEntry → State → State × List StartEntry
  | [], s => (s, [])
  | e :: q, s =>
    match s.live? e.programme with
    | none => walkStarts q (s.failStart false e)
    | some v =>
      match s.idlePlayer? with
      | some p =>
        if s.canStart e v then walkStarts q (s.admitStart e v p)
        else
          let r := walkStarts q s
          (r.1, e :: r.2)
      | none =>
        let r := walkStarts q s
        (r.1, e :: r.2)

/-- An entry that stayed queued is blocked by claims: with players and claims free it would start (R41; log 26). -/
def State.blockedByClaims (s : State) (e : StartEntry) : Bool :=
  match s.live? e.programme with
  | none => false
  | some v =>
    s.startTimely e && allAxes.all fun a => !inMask v.axisMask a || (s.axis a).claim.isSome || (s.axis a).free

/-- A player's release alone would let the entry start (R43). -/
def State.releaseLets (s : State) (e : StartEntry) (p : PlayerId) : Bool :=
  match s.live? e.programme with
  | none => false
  | some v =>
    s.startTimely e && allAxes.all fun a => !inMask v.axisMask a || (s.axis a).claim == some p || s.axisOpen a

/-- PRIMING, RUNNING or WAITING. -/
def Player.playing (x : Player) : Bool :=
  match x.state with
  | .priming | .running | .waiting => true
  | _ => false

/-- The better victim: lower priority, at equal priority the more recently admitted (R43). -/
def State.worseShow (s : State) (best : Option PlayerId) (p : PlayerId) : Option PlayerId :=
  match best with
  | none => some p
  | some q =>
    let x := s.player p
    let y := s.player q
    if x.priority < y.priority ∨ (x.priority = y.priority ∧ y.admission < x.admission) then some p else some q

/-- The victim of a preemption for an entry blocked by claims, if one is to be made (R43). -/
def State.victim? (s : State) (e : StartEntry) : Option PlayerId :=
  if allPlayers.any fun p => (s.player p).state == .draining &&
      (s.releaseLets e p || (s.player p).outcome == some .preempted) then none
  else
    (allPlayers.filter fun p => (s.player p).playing && (s.player p).priority < e.priority && s.releaseLets e p).foldl
      s.worseShow none

/-! ### Aborts and release (R57, R59) -/

/-- Steps 3 to 5 of an abort: strikes and rolls, pending moves, moving axes (R57). -/
def State.clearWork (s : State) (p : PlayerId) (halted : Bool) : State :=
  let s1 := s.flushPlayer p
  let s2 := allAxes.foldl (fun s a => if (s.axis a).slotOf p then s.discardMove a .abort else s) s1
  allAxes.foldl (fun s a =>
    if (s.axis a).claim = some p ∧ (s.axis a).state = .moving then
      if halted then s.stopMotion a .emergency .halt else s.stopMotion a .controlled .abort
    else s) s2

/-- A player enters DRAINING with an outcome (R55, R57). -/
def Player.drain (x : Player) (o : ShowOutcome) : Player :=
  { x with state := .draining, outcome := some o, reason := none, awaited := none, deadline := none,
           headStarved := false, awaitDue := none, awaitOver := false }

/-- A player is aborted (R57). -/
def State.abortPlayer (s : State) (p : PlayerId) (o : ShowOutcome) : State :=
  let halted := o == .halted
  if (s.player p).playing then (((s.modPlayer p (·.drain o)).stopChannel p).clearWork p halted)
  else if (s.player p).state = .draining ∧ halted then
    (s.modPlayer p fun x => { x with outcome := some o }).clearWork p true
  else s

/-- Nothing remains to settle for a DRAINING player (R59). -/
def State.settled (s : State) (p : PlayerId) : Bool :=
  (s.player p).state == .draining &&
  s.strikes.queue.all (fun e => e.owner != some p) &&
  allRolls.all (fun r => match s.roll r with | some x => x.owner != p | none => true) &&
  allAxes.all (fun a => !(s.axis a).slotOf p && !((s.axis a).claim == some p && (s.axis a).inMotion)) &&
  (match s.store.path with | some f => f.who != .channel p | none => true)

/-- A retiring version that nothing references is dropped (R171). -/
def State.reclaim (s : State) (g : ProgId) (v : Version) : State :=
  (((s.setPages v.pages .dirty).modDir g fun d => { d with retiring := none }).report .versionReclaimed
    (some (.programme g.number)) (some v.version) (some v.pageCount)).countStore
    fun c => { c with reclaims := sat32 c.reclaims }

/-- A version loses one reference. -/
def Version.unref (v : Version) : Version := { v with references := v.references - 1 }

/-- A player unpins its version, which it names by number (R170). -/
def State.unpin (s : State) (programme version : Nat) : State :=
  match progId? programme with
  | none => s
  | some g =>
    let d := s.dirEntry g
    if d.live.any (fun (v : Version) => v.version == version) then
      s.modDir g fun d => { d with live := d.live.map Version.unref }
    else
      match d.retiring with
      | some v =>
        if v.version = version then
          let s1 := s.modDir g fun d => { d with retiring := some v.unref }
          if v.unref.references = 0 then s1.reclaim g v.unref else s1
        else s
      | none => s

/-- SHOW_ENDED counts by outcome (R61). -/
def ShowCounters.ended (c : ShowCounters) : Option ShowOutcome → ShowCounters
  | some .completed => { c with endedCompleted := sat32 c.endedCompleted }
  | some .stopped => { c with endedStopped := sat32 c.endedStopped }
  | some .preempted => { c with endedPreempted := sat32 c.endedPreempted }
  | some .halted => { c with endedHalted := sat32 c.endedHalted }
  | none => c

/-- The fields an IDLE player keeps for reading (R46). -/
def Player.rest (x : Player) : Player :=
  { Player.initial with programme := x.programme, version := x.version, outcome := x.outcome, counters := x.counters }

/-- A player is released (R59). -/
def State.releasePlayer (s : State) (p : PlayerId) : State :=
  let x := s.player p
  let s1 := allAxes.foldl (fun s a =>
    if (s.axis a).claim = some p then s.modAxis a fun y => { y with claim := none } else s) s
  let s2 := s1.unpin x.programme x.version
  let s3 := (s2.report .showEnded (some (.player p.val)) (some x.programme)
    (x.outcome.map fun o => (o.code : Int))).countShow fun c => c.ended x.outcome
  (s3.modPlayer p Player.rest).oweAttempt

/-! ### The admission attempt (R40, R42, R43) -/

/-- Preemption for the first entry blocked by claims (R43). -/
def State.preempt (s : State) : State :=
  match s.shows.queue.find? s.blockedByClaims with
  | none => s
  | some e =>
    match s.victim? e with
    | none => s
    | some p => (s.abortPlayer p .preempted).countShow fun c => { c with preemptions := sat32 c.preemptions }

/-- An entry still queued needs the axis (R42). -/
def State.needed (s : State) (a : AxisId) : Bool :=
  s.shows.queue.any fun e => match s.live? e.programme with
    | some v => inMask v.axisMask a
    | none => false

/-- Homing requests at the end of an attempt (R42). -/
def State.requestHomings (s : State) : State :=
  if s.stage.mode = .auto ∧ s.store.setup.autoHome then
    allAxes.foldl (fun t a => if s.needed a then t.requestHoming a else t) s
  else s

/-- An admission attempt (R40). -/
def State.admission (s : State) : State :=
  let r := walkStarts s.shows.queue (s.modTodo fun t => { t with attempt := false })
  ((r.1.modShows fun b => { b with queue := r.2 }).preempt).requestHomings

/-! ### Waiting (R51 to R53) -/

/-- A WAITING player returns to RUNNING. -/
def Player.resumePlay (x : Player) : Player :=
  { x with state := .running, reason := none, awaited := none, deadline := none, awaitDue := none, awaitOver := false }

/-- The slot of a WAITING player with reason SLOT is empty, and FROZEN is clear (R51, R76). DEDUCED (unsafe, log 31): a slot
that empties while FROZEN, when no cue is dispatched, ends the wait when the freeze ends. -/
def State.slotWaitOver (s : State) (p : PlayerId) : Bool :=
  let x := s.player p
  x.state == .waiting && x.reason == some .slot && !s.time.frozen &&
  (match x.awaited with | some a => (s.axis a).slot.isNone | none => false)

/-- The axis of a WAIT_AXIS is IDLE with an empty slot (R53). -/
def State.axisWaitOver (s : State) (p : PlayerId) : Bool :=
  let x := s.player p
  x.state == .waiting && x.reason == some .waitAxis && (match x.awaited with | some a => (s.axis a).free | none => false)

/-- The deadline of a WAIT_AXIS is reached (R53). -/
def State.waitDeadline (s : State) (p : PlayerId) : Bool :=
  let x := s.player p
  x.state == .waiting && x.reason == some .waitAxis &&
  (match x.deadline with | some d => d ≤ s.time.stageTime | none => false)

/-- The awaited move of a player has ended (R52). -/
def State.awaitDone (s : State) (p : PlayerId) : Bool :=
  let x := s.player p
  (x.state == .running || x.state == .waiting) && x.awaited.isSome && x.awaitOver

/-- A WAIT_AXIS ends at its deadline (R53). -/
def State.timeOutWait (s : State) (p : PlayerId) : State :=
  let x := s.player p
  let s1 := s.report .waitTimeout (some (.player p.val)) (x.awaited.map fun a => (a.val : Int)) (some x.programme)
  s1.modPlayer p fun x =>
    { x.resumePlay with counters := { x.counters with waitTimeouts := sat32 x.counters.waitTimeouts } }

/-! ### Dispatch (R49 to R55) -/

/-- The stage time at which show time will reach a due time if the player waits no more (R49). -/
def Player.stageOf (x : Player) (due : Nat) : Nat := x.start + (due + x.waiting) * 100

/-- The head cue is dispatched: it leaves the FIFO, is counted, the next cue becomes the head, and the channel makes the
tests of a dispatch (R49, R56, R66, R67). -/
def State.popCue (s : State) (p : PlayerId) : State :=
  let s1 := s.modChannel p fun c => { c with fifo := c.fifo.tail }
  let s2 := s1.modPlayer p fun x =>
    { x with headStarved := false,
             counters := { x.counters with
               dispatched := sat32 x.counters.dispatched,
               starved := if x.headStarved then sat32 x.counters.starved else x.counters.starved } }
  (s2.takeHead p false).testDispatch p

/-- A MOVE is skipped as unavailable (R51). -/
def State.skipMove (s : State) (p : PlayerId) : State :=
  s.modPlayer p fun x => { x with counters := { x.counters with movesSkipped := sat32 x.counters.movesSkipped } }

/-- The axis and profile of a MOVE, where the player may place one: a stored axis that the player does not claim, or a
profile above 15, is of no published cue (log 12). -/
def State.moveTarget? (s : State) (p : PlayerId) (axis profile : Nat) : Option (AxisId × ProfileId) :=
  match finId? 8 axis, finId? 16 profile with
  | some a, some r => if (s.axis a).claim = some p then some (a, r) else none
  | _, _ => none

/-- An axis takes a move: IDLE, MOVING or STOPPING (R51). -/
def Axis.takesMoves (x : Axis) : Bool :=
  match x.state with
  | .idle | .moving | .stopping => true
  | _ => false

/-- A MOVE cue that is the head is tested (R51, R52); `due` is its due time. -/
def State.moveCue (s : State) (p : PlayerId) (axis : Nat) (target : Int) (profile await due : Nat) : State :=
  match s.moveTarget? p axis profile with
  | none => (s.popCue p).skipMove p
  | some (a, r) =>
    if (s.axis a).takesMoves then
      if (s.axis a).slot.isSome then
        s.modPlayer p fun x => { x with state := .waiting, reason := some .slot, awaited := some a }
      else
        let at_ := (s.player p).stageOf due
        let s1 := s.popCue p
        let s2 := if await = 1 then
            s1.modPlayer p fun x => { x with awaited := some a, awaitDue := some due, awaitOver := false }
          else s1
        s2.placeMove a target r at_ (.player p)
    else (s.popCue p).skipMove p

/-- A WAIT_AXIS cue is dispatched (R53). -/
def State.waitAxisCue (s : State) (p : PlayerId) (axis timeout : Nat) : State :=
  let s1 := s.popCue p
  match finId? 8 axis with
  | none => s1
  | some a =>
    if (s1.axis a).free then s1
    else s1.modPlayer p fun x =>
      { x with state := .waiting, reason := some .waitAxis, awaited := some a,
               deadline := some (s.time.stageTime + timeout * 100000) }

/-- The END cue is dispatched (R55, R72). -/
def State.endCue (s : State) (p : PlayerId) : State :=
  ((s.popCue p).modPlayer p (·.drain .completed)).stopChannel p

/-- The head cue, due at `due`, is dispatched or makes its player wait (R50 to R55). -/
def State.dispatchCue (s : State) (p : PlayerId) (c : Cue) (due : Nat) : State :=
  let sound := (s.player p).stageOf due
  match c with
  | .strike bell v => ((s.popCue p).offerStrike bell v sound (some p) none).1
  | .roll bell v a b n => (s.popCue p).rollCue p bell v a b n sound
  | .move axis target profile await => s.moveCue p axis target profile await due
  | .waitAxis axis timeout => s.waitAxisCue p axis timeout
  | .mark m => (s.popCue p).report .marker (some (.player p.val)) (some m) (some (s.player p).programme)
  | .endShow => s.endCue p

/-- The head cue with its due time, once its threshold is reached and the player dispatches (R49, R52). After an awaited move
that ends within the very tick of its dispatch, dispatching is taken up on the next show tick (log 18). -/
def State.dueCue? (s : State) (p : PlayerId) : Option (Cue × Nat) :=
  let x := s.player p
  match (s.channel p).fifo with
  | q :: _ =>
    if x.state = .running ∧ x.awaited = none ∧ q.cue.threshold x.headDue ≤ x.showTime then some (q.cue, x.headDue) else none
  | [] => none

/-- The dispatches of a show tick, one cue after another (R49). -/
def dispatchCues (p : PlayerId) : Nat → State → State
  | 0, s => s
  | n + 1, s =>
    match s.dueCue? p with
    | some (c, due) => dispatchCues p n (s.dispatchCue p c due)
    | none => s

/-- A PRIMING player starts (R47). -/
def State.startPlaying (s : State) (p : PlayerId) : State :=
  let x := s.player p
  let c := s.channel p
  if x.state = .priming ∧ (8 ≤ c.fill ∨ c.state = .atEnd) then
    (s.modPlayer p fun x => { x with state := .running, start := s.time.stageTime, showTime := 0 }).report .showStarted
      (some (.player p.val)) (some x.programme) (some x.version)
  else s

/-- Waiting and show time at a show tick (R48). DESIGN CHOICE (unsafe, log 27): by the formula, also for a player that drains
from PRIMING and whose start stage time is still 0; a player in PRIMING, whose show clock has not started, keeps the show
time 0 of its admission, which READ_PLAYER returns (R62). -/
def Player.clockTick (x : Player) (t : Nat) : Player :=
  let w := if x.state = .waiting then x.waiting + 1 else x.waiting
  match x.state with
  | .running | .waiting | .draining => { x with waiting := w, showTime := (t - x.start) / 100 - w }
  | _ => x

/-- At the cue's due time the player waits for the awaited move, unless it has ended (R52). -/
def Player.awaitTick (x : Player) : Player :=
  match x.state, x.awaited, x.awaitDue with
  | .running, some _, some due =>
    if due ≤ x.showTime ∧ ¬ x.awaitOver then { x with state := .waiting, reason := some .await } else x
  | _, _, _ => x

/-- The show tick of one player (R47 to R49, R52). -/
def State.playerTick (s : State) (p : PlayerId) : State :=
  let s1 := (s.modPlayer p fun x => x.clockTick s.time.stageTime).startPlaying p
  (dispatchCues p ((s1.channel p).fill + 1) s1).modPlayer p Player.awaitTick

end Sys2Proof.Machine
end

