-- ==== Sys2Proof/Machine/Settle.lean ====
section
/-! DEFINITION. The read arbiter (R164) and the follow-ups of an event: steps of the table that follow at once on what
another step has brought about (log 1). -/

namespace Sys2Proof.Machine

/-! ### The read arbiter (R164) -/

/-- The first QUEUED channel: lowest fill, ties to the lowest player (R68, R164). -/
def State.queuedChannel? (s : State) : Option PlayerId :=
  (allPlayers.filter fun p => (s.channel p).read == .queued).foldl (fun best p => match best with
    | none => some p
    | some q => if (s.channel p).fill < (s.channel q).fill then some p else some q) none

/-- The requester the arbiter would grant now (R164): while SUSPENDED, channels only. -/
def State.nextReader? (s : State) : Option Requester :=
  match s.store.path, s.store.waiting with
  | none, none =>
    match s.store.array with
    | .erasing _ | .programming _ => none
    | .suspended _ => s.queuedChannel?.map .channel
    | .idle =>
      match s.queuedChannel? with
      | some p => some (.channel p)
      | none =>
        match s.store.portReads with
        | r :: _ => some (.port r.port)
        | [] => if s.store.ownRead then some .store else none
  | _, _ => none

/-- The path is taken for 0.25 ms (R164). -/
def State.takePath (s : State) (f : InFlight) : State := s.modStore fun t => { t with path := some f }

/-- The arbiter grants a requester (R68, R164). -/
def State.grantRead (s : State) (who : Requester) : State :=
  match who with
  | .channel p =>
    (s.takePath { who := who, left := Config.readTicks, page := 0, offset := 0, length := 0 }).modChannel p
      fun c => { c with read := .inFlight }
  | .port _ =>
    match s.store.portReads with
    | r :: rs =>
      (s.takePath { who := .port r.port, left := Config.readTicks, page := r.page, offset := r.offset,
                    length := r.length }).modStore fun t => { t with portReads := rs }
    | [] => s
  | .store =>
    (s.takePath { who := who, left := Config.readTicks, page := 0, offset := 0, length := 0 }).modStore
      fun t => { t with ownRead := false }

/-! ### The follow-ups -/

/-- A follow-up: a row of the table whose condition an event may have brought about. -/
inductive Follow where
  | storeWaitEnd (p : PlayerId)
  | slotWaitEnd (p : PlayerId)
  | awaitEnd (p : PlayerId)
  | waitAxisEnd (p : PlayerId)
  | slotGrant
  | attempt
  | release (p : PlayerId)
  | readGrant
deriving DecidableEq, Repr

/-- The first follow-up whose condition holds, in a fixed order (log 1). A channel in WAITING_STORE comes first: a change in
what the array is doing is told to it in the event in which it occurs (R67, R163). -/
def firstFollow (s : State) : Option Follow :=
  match allPlayers.find? s.storeOpen with
  | some p => some (.storeWaitEnd p)
  | none =>
  match allPlayers.find? s.slotWaitOver with
  | some p => some (.slotWaitEnd p)
  | none =>
  match allPlayers.find? s.awaitDone with
  | some p => some (.awaitEnd p)
  | none =>
  match allPlayers.find? s.axisWaitOver with
  | some p => some (.waitAxisEnd p)
  | none =>
  if s.nextGrant?.isSome then some .slotGrant
  else if s.todo.attempt then some .attempt
  else
  match allPlayers.find? s.settled with
  | some p => some (.release p)
  | none =>
  if s.nextReader?.isSome then some .readGrant else none

/-- The follow-up that is owed: none while the main domain does not run. -/
def nextFollow (s : State) : Option Follow := if s.running then firstFollow s else none

/-- SLOT_WAIT_END: the held MOVE is placed or skipped, and the player returns to RUNNING (R51). -/
def State.slotWaitStep (s : State) (p : PlayerId) : State :=
  if s.slotWaitOver p then
    let s1 := s.modPlayer p Player.resumePlay
    match (s1.channel p).fifo with
    | { delta := _, cue := .move axis target profile await } :: _ =>
      (s1.moveCue p axis target profile await (s1.player p).headDue).close
    | _ => s1.close
  else s

/-- AWAIT_END: the awaited axis is cleared, and the player takes up dispatching again, from the next show tick on (R52,
log 18). -/
def State.awaitStep (s : State) (p : PlayerId) : State := if s.awaitDone p then s.modPlayer p Player.resumePlay else s

/-- WAIT_AXIS_END: the player returns to RUNNING (R53). -/
def State.waitAxisStep (s : State) (p : PlayerId) : State :=
  if s.axisWaitOver p then s.modPlayer p Player.resumePlay else s

/-- SLOT_GRANT: the first candidate launches on the lowest FREE slot (R94, R108, R109). -/
def State.grantStep (s : State) : State :=
  match s.nextGrant? with
  | some (e, k) => s.launch e k
  | none => s

/-- ADMISSION_ATTEMPT (R40). -/
def State.attemptStep (s : State) : State := s.admission.close

/-- PLAYER_RELEASE (R59). -/
def State.releaseStep (s : State) (p : PlayerId) : State := if s.settled p then (s.releasePlayer p).close else s

/-- STORE_WAIT_END: a channel in WAITING_STORE re-tests the store when the array changes (R67). -/
def State.storeWaitStep (s : State) (p : PlayerId) : State := if s.storeOpen p then s.placeRead p else s

/-- READ_GRANT (R164). -/
def State.readGrantStep (s : State) : State :=
  match s.nextReader? with
  | some r => s.grantRead r
  | none => s

/-- One follow-up. -/
def Follow.run (f : Follow) (s : State) : State :=
  match f with
  | .slotWaitEnd p => s.slotWaitStep p
  | .awaitEnd p => s.awaitStep p
  | .waitAxisEnd p => s.waitAxisStep p
  | .slotGrant => s.grantStep
  | .attempt => s.attemptStep
  | .release p => s.releaseStep p
  | .storeWaitEnd p => s.storeWaitStep p
  | .readGrant => s.readGrantStep

/-- Follow-ups one after another, at most `fuel` of them. -/
def settleFor : Nat → State → State
  | 0, s => s
  | n + 1, s =>
    match nextFollow s with
    | some f => settleFor n (f.run s)
    | none => s

/-- Every follow-up that is owed (log 1). -/
def settle (s : State) : State := settleFor Config.settleFuel s

end Sys2Proof.Machine
end

