-- ==== Sys2Proof/Machine/Calendar.lean ====
section
/-! DEFINITION. The show calendar (chapter 2): matching and search of trigger stamps, seasons, anchoring and evaluation.
A trigger stamp is its minute count since 2000-01-01 00:00 (R24). -/

namespace Sys2Proof.Machine

/-! ### Matching (R21) -/

/-- The minute of the day lies in the entry's set (R21, condition 1). -/
def CalendarEntry.kindMatches (e : CalendarEntry) (m : Nat) : Bool :=
  match e.kind with
  | .dailyAt => m / 60 == e.hour && m % 60 == e.minute
  | .hourly => m % 60 == e.hourlyMinute && e.firstHour ≤ m / 60 && m / 60 ≤ e.lastHour
  | .interval => m % e.interval == 0 && e.windowFirst ≤ m && m ≤ e.windowLast
  | .noKind => false

/-- The day's weekday and season have their bits set (R21, conditions 2 and 3). -/
def CalendarEntry.dayMatches (e : CalendarEntry) (t : Vector SeasonEntry 16) (day : Nat) : Bool :=
  e.weekdays.getLsbD (weekdayOfDay day) && e.seasons.getLsbD (seasonOfDate t (dateOfDay day))

/-- A stamp matches an entry (R21). -/
def CalendarEntry.matchesStamp (e : CalendarEntry) (t : Vector SeasonEntry 16) (stamp : Nat) : Bool :=
  e.kindMatches (stamp % 1440) && e.dayMatches t (stamp / 1440)

/-- The latest minute of a day, no later than `hi`, in the entry's set. -/
def CalendarEntry.latestInDay (e : CalendarEntry) (hi : Nat) : Option Nat :=
  match e.kind with
  | .dailyAt =>
    if e.minute ≤ 59 ∧ e.hour * 60 + e.minute ≤ hi then some (e.hour * 60 + e.minute) else none
  | .hourly =>
    if e.hourlyMinute ≤ 59 ∧ e.hourlyMinute ≤ hi then
      let h := min e.lastHour ((hi - e.hourlyMinute) / 60)
      if e.firstHour ≤ h then some (h * 60 + e.hourlyMinute) else none
    else none
  | .interval =>
    let top := min hi e.windowLast
    let k := top - top % e.interval
    if e.windowFirst ≤ k then some k else none
  | .noKind => none

/-- Searches day by day backward from `day`, whose minutes up to `hi` count, for the latest matching stamp not below
`low`. -/
def searchDays (e : CalendarEntry) (t : Vector SeasonEntry 16) (low : Nat) : Nat → Nat → Nat → Option Nat
  | 0, _, _ => none
  | fuel + 1, day, hi =>
    match (if e.dayMatches t day then e.latestInDay hi else none) with
    | some m => if low ≤ day * 1440 + m then some (day * 1440 + m) else none
    | none => if day = 0 ∨ day * 1440 ≤ low then none else searchDays e t low fuel (day - 1) 1439

/-- The earliest stamp of the search horizon that ends at a time in milliseconds (R27). -/
def horizonStart (now : Nat) : Nat := (now + 59999) / 60000 - Config.horizonMinutes

/-- The latest matching stamp not below `low`, in the horizon, and no later than `now` (R25, R27). -/
def CalendarEntry.latestMatch (e : CalendarEntry) (t : Vector SeasonEntry 16) (low now : Nat) : Option Nat :=
  searchDays e t (max low (horizonStart now)) 368 (now / 60000 / 1440) (now / 60000 % 1440)

/-! ### Seasons (R23, R33) -/

/-- The season entry that the clock's date calls for; none while the clock is INVALID (R23). -/
def State.seasonNow? (s : State) : Option SeasonId :=
  if s.backup.validity = .valid then seasonEntryOf s.calendar.seasons (wallFields s.backup.wallMs).date else none

/-- The active season is set to that of an entry, and reported when it changes (R23, R33). -/
def State.setSeason (s : State) (k : Option SeasonId) : State :=
  let new := seasonIdOf s.calendar.seasons k
  let old := s.calendar.active
  let s1 := s.modCalendar fun c => { c with active := new, activeEntry := k }
  if new = old then s1
  else s1.report .seasonChanged (k.map fun i => .seasonEntry i.val) (some new) (some old)

/-- The active season is recomputed (R23). -/
def State.recomputeSeason (s : State) : State := s.setSeason s.seasonNow?

/-! ### Evaluation (R25 to R29) -/

/-- An entry's last-handled stamp is set (R24). -/
def State.setStamp (s : State) (k : CalId) (x : Option Nat) : State :=
  s.modBackup fun b => { b with stamps := b.stamps.set k x }

/-- A skip is counted by its reason (R34). -/
def CalendarCounters.skip (c : CalendarCounters) : SkipReason → CalendarCounters
  | .clockInvalid => { c with clockInvalid := sat32 c.clockInvalid }
  | .mode => { c with mode := sat32 c.mode }
  | .silent => { c with silent := sat32 c.silent }
  | .late => { c with late := sat32 c.late }
  | .notFound => { c with notFound := sat32 c.notFound }
  | .queueFull => { c with queueFull := sat32 c.queueFull }

/-- CALENDAR_SKIPPED (R33, R34). -/
def State.skipStamp (s : State) (k : CalId) (r : SkipReason) (stamp : Nat) : State :=
  (s.report .calendarSkipped (some (.calendarEntry k.val)) (some r.code) (some stamp)).countCalendar (·.skip r)

/-- Tests 1 to 5 of R28: the reason of a skip, or the live version of the programme to start. -/
def State.stampOutcome (s : State) (e : CalendarEntry) (stamp now : Nat) : Except SkipReason (ProgId × Version) :=
  if s.backup.validity = .invalid then .error .clockInvalid
  else if s.stage.mode ≠ .auto then .error .mode
  else if e.silent = .skip ∧ s.backup.mute then .error .silent
  else
    match (match progId? e.programme with
      | none => none
      | some p => (s.live? p).map fun v => (p, v)) with
    | none => .error .notFound
    | some (p, v) => if v.latestStart * 1000 < now - stamp * 60000 then .error .late else .ok (p, v)

/-- A stamp found for an entry is handled (R28, R29). DESIGN CHOICE (unsafe, log 23): the admission attempt of its start (R40)
is made before CALENDAR_FIRED is reported. -/
def State.handleStamp (s : State) (k : CalId) (e : CalendarEntry) (stamp now : Nat) : State :=
  let s1 := s.setStamp k (some stamp)
  match s1.stampOutcome e stamp now with
  | .error r => s1.skipStamp k r stamp
  | .ok (p, v) =>
    match s1.arriveStart p v e.priority (.calendar k) (some stamp) with
    | none => (s1.refuseStart).skipStamp k .queueFull stamp
    | some s2 =>
      ((settle s2).report .calendarFired (some (.calendarEntry k.val)) (some e.programme) (some stamp)).countCalendar
        fun c => { c with fired := sat32 c.fired }

/-- One entry of an evaluation (R25, R27). -/
def State.evaluateEntry (s : State) (now : Nat) (k : CalId) : State :=
  let e := s.calendar.entries[k]
  if e.enabled then
    match s.backup.stamps[k] with
    | none =>
      if s.backup.validity = .valid then
        s.setStamp k (some ((e.latestMatch s.calendar.seasons 0 now).getD (now / 60000)))
      else s
    | some last =>
      match e.latestMatch s.calendar.seasons (last + 1) now with
      | none => s
      | some stamp => s.handleStamp k e stamp now
  else s

/-- An evaluation at `now`, in milliseconds: the enabled entries in ascending index (R26). -/
def State.evaluate (s : State) (now : Nat) : State := allCals.foldl (fun s k => s.evaluateEntry now k) s

/-- A minute boundary is delivered with its stamp (R6, R8, R23, R26). -/
def State.deliverBoundary (s : State) (stamp : Nat) : State :=
  let s1 := if stamp % 1440 = 0 then s.recomputeSeason else s
  s1.evaluate (stamp * 60000)

end Sys2Proof.Machine
end

