-- ==== Sys2Proof/Machine/StoreImage.lean ====
section
/-! DEFINITION. The stored formats (R197, R198): the images of the directory, table and setup pages, and what a page that
LOADING reads gives (R32, R78, R122, R125, R145, R177, R179). -/

namespace Sys2Proof.Machine

/-! ### Pages with a page check (R198) -/

/-- The sum of the bytes of a list. -/
def sumBytes : List Byte → Nat
  | [] => 0
  | b :: bs => b.toNat + sumBytes bs

/-- The page check of the first 510 bytes (R198). -/
def pageCheck (body : List Byte) : Nat := 65535 - sumBytes body % 65536

/-- A list of bytes cut or filled with 0xFF to a length. -/
def padTo (n : Nat) (bs : List Byte) : List Byte := (bs ++ List.replicate n 0xFF#8).take n

/-- A page of given contents, ended by its page check. -/
def sealPage (body : List Byte) : List Byte := padTo 510 body ++ le 2 (pageCheck (padTo 510 body))

/-- A page that LOADING reads passes: it is not cut, and its check matches (R179, R181). A blank page fails its check. -/
def pagePasses (n : Nvm) (p : Nat) : Bool :=
  (if h : p < 512 then n.cut[p] == none else false) &&
  ofLe (n.bytes (512 * p + 510) 2) == pageCheck (n.bytes (512 * p) 510)

/-! ### The directory (R170, R198) -/

/-- The directory page of a programme. -/
def dirPage (g : ProgId) : Nat := if g.val < 32 then 1 else 2

/-- The programmes of a directory page. -/
def progsOfPage (page : Nat) : List ProgId := allProgs.filter fun g => dirPage g == page

/-- The 12 bytes of a directory entry; those of an EMPTY entry are free but for the first, which is not 0x01 (log 16). -/
def dirBytes (v : Option Version) : List Byte :=
  match v with
  | some v =>
    [1#8] ++ u16 v.version ++ u16 v.firstPage ++ u8 v.pageCount ++ u16 v.cueCount ++ [v.axisMask] ++ u8 v.priority ++
    u16 v.latestStart
  | none =>
    (if Config.emptyEntryByte 0 = 1#8 then 0#8 else Config.emptyEntryByte 0) ::
    (List.range 11).map fun k => Config.emptyEntryByte (k + 1)

/-- The image of a directory page: the live versions of its entries (R174). -/
def State.dirImage (s : State) (page : Nat) : List Byte :=
  sealPage ((progsOfPage page).flatMap fun g => dirBytes (s.live? g))

/-- A version's fields lie in their ranges, and its pages in the store (R170, R179). -/
def Version.inRange (v : Version) : Bool :=
  1 ≤ v.version && v.version ≤ 65535 && 8 ≤ v.firstPage && 1 ≤ v.cueCount && v.cueCount ≤ 4092 && v.priority ≤ 7 &&
  v.latestStart ≤ 600 && v.pageCount == pagesOfCues v.cueCount && v.firstPage + v.pageCount ≤ 512

/-- The pages of two versions overlap. -/
def Version.overlaps (v w : Version) : Bool :=
  v.firstPage < w.firstPage + w.pageCount && w.firstPage < v.firstPage + v.pageCount

/-- The version a stored entry gives, if it is marked live. -/
def storedVersion? (b : List Byte) : Option Version :=
  if byteAt b 0 = 1#8 then
    some { version := at2 b 1, firstPage := at2 b 3, pageCount := at1 b 5, cueCount := at2 b 6, axisMask := byteAt b 8,
           priority := at1 b 9, latestStart := at2 b 10, references := 0 }
  else none

/-- One entry of a directory page is taken (R179). -/
def State.loadDirEntry (s : State) (g : ProgId) : State :=
  match storedVersion? (s.store.nvm.bytes (512 * dirPage g + 12 * (g.val % 32)) 12) with
  | none => s
  | some v =>
    if v.inRange && allProgs.all (fun h => g.val ≤ h.val || (match s.live? h with | some w => !v.overlaps w | none => true))
    then s.modDir g fun _ => { live := some v, retiring := none }
    else s.modStore fun t => { t with dirFault := true }

/-- A directory page is delivered (R179). -/
def State.loadDirectory (s : State) (page : Nat) : State :=
  if pagePasses s.store.nvm page then (progsOfPage page).foldl State.loadDirEntry s
  else s.modStore fun t => { t with dirFault := true }

/-! ### The calendar pages (R32, R198) -/

/-- The 12 bits a calendar page keeps of a window bound (log 10). -/
def window12 (n : Nat) : Nat := if n < 4096 then n else (Config.packedWindow n).toNat

/-- The 15 bytes of a calendar entry. -/
def calBytes (e : CalendarEntry) : List Byte :=
  u8 (boolCode e.enabled + 2 * e.kind.code + 8 * e.silent.code + 16 * (e.priority % 8)) ++ u8 e.programme ++ u8 e.hour ++
  u8 e.minute ++ u8 e.hourlyMinute ++ u8 e.firstHour ++ u8 e.lastHour ++ u16 e.interval ++
  le 3 (window12 e.windowFirst + 4096 * window12 e.windowLast) ++ [e.weekdays] ++ le 2 e.seasons.toNat

/-- The calendar entry 15 stored bytes give: disabled when a field is out of range (R32). -/
def storedCalendar (b : List Byte) : CalendarEntry :=
  let f := at1 b 0
  let w := at2 b 9 + 65536 * at1 b 11
  let e : CalendarEntry :=
    { enabled := f % 2 == 1, programme := at1 b 1, kind := calendarKindOf (f / 2 % 4), hour := at1 b 2, minute := at1 b 3,
      hourlyMinute := at1 b 4, firstHour := at1 b 5, lastHour := at1 b 6, interval := at2 b 7, windowFirst := w % 4096,
      windowLast := w / 4096, weekdays := byteAt b 12 &&& 0x7F#8, seasons := half b 13, priority := f / 16 % 8,
      silent := if f / 8 % 2 == 1 then .skip else .play }
  { e with enabled := e.enabled && e.inRange }

/-- The 7 bytes of a season entry. -/
def seasonBytes (e : SeasonEntry) : List Byte :=
  flag e.enabled ++ u8 e.startMonth ++ u8 e.startDay ++ u8 e.endMonth ++ u8 e.endDay ++ u8 e.seasonId ++ u8 e.rank

/-- The season entry 7 stored bytes give (R32). -/
def storedSeason (b : List Byte) : SeasonEntry :=
  let e : SeasonEntry :=
    { enabled := false, startMonth := at1 b 1, startDay := at1 b 2, endMonth := at1 b 3, endDay := at1 b 4,
      seasonId := at1 b 5, rank := at1 b 6 }
  { e with enabled := flagOf (byteAt b 0) == some true && e.inRange }

/-! ### Profiles and interlocks (R125, R145, R198) -/

def profileBytes (p : Profile) : List Byte := u16 p.maxSpeed ++ u32 p.acceleration ++ u32 p.deceleration

/-- The profile 10 stored bytes give (R125). -/
def storedProfile (b : List Byte) : Profile :=
  let p := ProfilePayload.profile (profileOf b)
  if p.inRange then p else Profile.blank

def interlockBytes (e : Interlock) : List Byte :=
  flag e.enabled ++ u8 e.guarded ++ i16 e.safeLow ++ i16 e.safeHigh ++ u8 e.condition ++ i16 e.windowLow ++
  i16 e.windowHigh

/-- The interlock entry 11 stored bytes give (R145). -/
def storedInterlock (b : List Byte) : Interlock :=
  let p := interlockOf b
  let e := InterlockPayload.entry p false
  { e with enabled := flagOf p.enabled == some true && e.wellFormed }

/-! ### Bells and axes (R78, R122, R198) -/

/-- The 12 bytes of a bell; FAULTED is stored as IN_SERVICE (R78). -/
def bellBytes (b : Bell) : List Byte :=
  u8 (if b.state = .disabled then BellState.disabled.code else BellState.inService.code) ++ u16 b.driveMin ++
  u16 b.driveMax ++ u16 b.recover ++ u16 b.flightInit ++ u8 b.velocityCap ++ b.outputPolarity.bytes Polarity.code ++
  b.contactPolarity.bytes Polarity.code

/-- The bell 12 stored bytes give, over the record that keeps its other fields (R78). -/
def storedBell (b : List Byte) (x : Bell) : Bell :=
  let p := bellOf b
  let y := { BellPayload.apply p .disabled x with launched := 0 }
  if y.inRange then { y with state := (bellStateOf p.state).getD .disabled } else y

/-- The 22 bytes of an axis configuration. -/
def axisBytes (c : AxisConfig) : List Byte :=
  flag c.enabled ++ i16 c.softLow ++ i16 c.softHigh ++ i16 c.home ++ c.homeDirection.bytes Direction.code ++
  u16 c.homeSpeed ++ u16 c.searchTravel ++ u8 c.slipTolerance ++ u32 c.emergencyDeceleration ++
  c.stepPolarity.bytes Polarity.code ++ c.directionPolarity.bytes DirectionPolarity.code ++
  c.pinMode.bytes PinMode.code ++ c.pullUp.bytes boolCode ++ c.switchActive.bytes Level.code

/-- The configuration 22 stored bytes give (R122). -/
def storedAxis (b : List Byte) : AxisConfig :=
  let p := axisOf b
  let c := AxisPayload.config p false
  { c with enabled := flagOf p.enabled == some true && c.wellFormed }

/-- An axis takes a configuration at the delivery of page 7 (R122). -/
def State.deliverAxis (s : State) (c : AxisConfig) (a : AxisId) : State :=
  s.modAxis a fun x => { x with config := c, state := if c.enabled then .unhomed else .disabled }

/-! ### Delivery of the table pages (R179) -/

/-- What entry `k` of size `size`, from an offset on a page, gives; the blank record on a page that failed. -/
def State.storedOr {α : Type} (s : State) (ok : Bool) (blank : α) (f : List Byte → α) (page offset size k : Nat) : α :=
  if ok then f (s.store.nvm.bytes (512 * page + offset + size * k) size) else blank

def State.loadCalendarEntry (s : State) (page : Nat) (ok : Bool) (k : CalId) : State :=
  let e := s.storedOr ok CalendarEntry.blank storedCalendar page 0 15 (k.val % 32)
  if k.val / 32 + 3 = page then s.modCalendar fun c => { c with entries := c.entries.set k e } else s

def State.loadSeason (s : State) (ok : Bool) (k : SeasonId) : State :=
  let e := s.storedOr ok SeasonEntry.blank storedSeason 5 0 7 k.val
  s.modCalendar fun c => { c with seasons := c.seasons.set k e }

def State.loadProfile (s : State) (ok : Bool) (k : ProfileId) : State :=
  let e := s.storedOr ok Profile.blank storedProfile 6 0 10 k.val
  s.modAxes fun x => { x with profiles := x.profiles.set k e }

def State.loadInterlock (s : State) (ok : Bool) (k : InterlockId) : State :=
  let e := s.storedOr ok Interlock.blank storedInterlock 6 160 11 k.val
  s.modAxes fun x => { x with interlocks := x.interlocks.set k e }

def State.loadBell (s : State) (ok : Bool) (b : BellId) : State :=
  s.modBell b fun x => s.storedOr ok Bell.blank (fun bs => storedBell bs x) 7 0 12 b.val

def State.loadAxis (s : State) (ok : Bool) (a : AxisId) : State :=
  s.deliverAxis (s.storedOr ok AxisConfig.blank storedAxis 7 288 22 a.val) a

/-- A table page is delivered to its blocks; a page that is blank or fails its check is delivered as blank (R179). -/
def State.loadTable (s : State) (page : Nat) : State :=
  let ok := pagePasses s.store.nvm page
  let s0 := if ok then s else s.modStore fun t => { t with tableFault := true }
  match page with
  | 3 | 4 => allCals.foldl (fun s k => s.loadCalendarEntry page ok k) s0
  | 5 => allSeasons.foldl (fun s k => s.loadSeason ok k) s0
  | 6 => allInterlocks.foldl (fun s k => s.loadInterlock ok k) (allProfiles.foldl (fun s k => s.loadProfile ok k) s0)
  | 7 =>
    (allAxes.foldl (fun s a => s.loadAxis ok a) (allBells.foldl (fun s b => s.loadBell ok b) s0)).modHammerDrive
      fun h => { h with outputsOn := true }
  | _ => s0

/-- The image of a table page (R176, R198). -/
def State.tableImage (s : State) (page : Nat) : List Byte :=
  sealPage (match page with
    | 3 | 4 => (allCals.filter fun k => k.val / 32 + 3 == page).flatMap fun k => calBytes s.calendar.entries[k]
    | 5 => allSeasons.flatMap fun k => seasonBytes s.calendar.seasons[k]
    | 6 => (allProfiles.flatMap fun k => profileBytes s.axes.profiles[k]) ++
           (allInterlocks.flatMap fun k => interlockBytes s.axes.interlocks[k])
    | 7 => (allBells.flatMap fun b => bellBytes (s.bell b)) ++ (allAxes.flatMap fun a => axisBytes (s.axis a).config)
    | _ => [])

/-! ### The setup record (R177, R198) -/

/-- The fields of the setup record with its ports' fields, as WRITE_SETUP carries them. -/
def SetupPayload.default : SetupPayload :=
  { venueAddress := 0x30#8, programmeAddress := 0x31#8, serviceAddress := 0x32#8, venueHold := 0#8, programmeHold := 0#8,
    serviceHold := 0#8, driveSlots := 4#8, slipAllowance := 15#8, holdTimeout := 30#8, freezeLimit := 10#8,
    autoHome := 1#8, protection := 0#16 }

/-- A one-byte field with its complement after it (R198). -/
def paired (b : Byte) : List Byte := [b, ~~~b]

/-- The image of page 0: each field and its complement; the rest is free (R178, R198, log 16). -/
def SetupPayload.image (p : SetupPayload) : List Byte :=
  paired p.venueAddress ++ paired p.programmeAddress ++ paired p.serviceAddress ++ paired p.venueHold ++
  paired p.programmeHold ++ paired p.serviceHold ++ paired p.driveSlots ++ paired p.slipAllowance ++
  paired p.holdTimeout ++ paired p.freezeLimit ++ paired p.autoHome ++ le 2 p.protection.toNat ++
  le 2 (~~~p.protection).toNat ++ (List.range 486).map fun k => Config.setupFill (k + 26)

/-- A stored one-byte field, unless its complement does not match or it lies outside its range (R177). -/
def storedField? (b : List Byte) (k low high : Nat) : Option Byte :=
  if byteAt b (k + 1) = ~~~(byteAt b k) ∧ low ≤ at1 b k ∧ at1 b k ≤ high then some (byteAt b k) else none

/-- The stored protection mask, which takes any value (R177). -/
def storedMask? (b : List Byte) : Option Half := if half b 24 = ~~~(half b 22) then some (half b 22) else none

/-- The setup record read from page 0, and whether a field took its default (R177). -/
def storedSetup (b : List Byte) : SetupPayload × Bool :=
  let f (k low high : Nat) := storedField? b k low high
  let d := SetupPayload.default
  ({ venueAddress := (f 0 0x08 0x77).getD d.venueAddress, programmeAddress := (f 2 0x08 0x77).getD d.programmeAddress,
     serviceAddress := (f 4 0x08 0x77).getD d.serviceAddress, venueHold := (f 6 0 1).getD d.venueHold,
     programmeHold := (f 8 0 1).getD d.programmeHold, serviceHold := (f 10 0 1).getD d.serviceHold,
     driveSlots := (f 12 1 6).getD d.driveSlots, slipAllowance := (f 14 0 30).getD d.slipAllowance,
     holdTimeout := (f 16 1 255).getD d.holdTimeout, freezeLimit := (f 18 1 60).getD d.freezeLimit,
     autoHome := (f 20 0 1).getD d.autoHome, protection := (storedMask? b).getD d.protection },
   !((f 0 0x08 0x77).isSome && (f 2 0x08 0x77).isSome && (f 4 0x08 0x77).isSome && (f 6 0 1).isSome && (f 8 0 1).isSome &&
     (f 10 0 1).isSome && (f 12 1 6).isSome && (f 14 0 30).isSome && (f 16 1 255).isSome && (f 18 1 60).isSome &&
     (f 20 0 1).isSome && (storedMask? b).isSome))

/-- Step 1 of LOADING: the setup record is checked and its values handed to their blocks (R107, R177, R179, R183). A page
0 cut by a main reset always counts as failing (R181). -/
def State.loadSetup (s : State) : State :=
  let r := storedSetup (s.store.nvm.bytes 0 26)
  let p := r.1
  let s1 := s.modStore fun t =>
    { t with
      setupFault := r.2 || t.nvm.cut[0] != none,
      setup := { driveSlots := p.driveSlots.toNat, slipAllowance := p.slipAllowance.toNat,
                 holdTimeout := p.holdTimeout.toNat, freezeLimit := p.freezeLimit.toNat, autoHome := p.autoHome == 1#8,
                 protection := p.protection } }
  let s2 := s1.modHammerDrive fun h => { h with slots := List.replicate p.driveSlots.toNat none }
  let take (s : State) (q : PortId) (addr hold : Byte) : State :=
    s.modPort q fun c => { c with address := addr.toNat, clockHold := hold == 1#8, present := true }
  take (take (take s2 .venue p.venueAddress p.venueHold) .programme p.programmeAddress p.programmeHold) .service
    p.serviceAddress p.serviceHold

end Sys2Proof.Machine
end

