-- ==== Sys2Proof/Machine/Store.lean ====
section
/-! DEFINITION. The programme store at work (chapter 9): operations and phases, publishing, reads, LOADING, and what a main
reset leaves in the array. -/

namespace Sys2Proof.Machine

/-! ### Ending an operation (R182) -/

/-- The kind of an operation. -/
def OpBody.kind : OpBody → OpKind
  | .erasePage _ => .erasePage
  | .writePage _ => .writePage
  | .publish _ _ _ => .publish
  | .remove _ _ => .remove
  | .saveTables _ => .saveTables
  | .writeSetup _ => .writeSetup

/-- The subject of an operation's STORE_DONE. -/
def OpBody.subject : OpBody → Option Subject
  | .erasePage p | .writePage p => some (.page p)
  | .publish g _ _ | .remove g _ => some (.programme g.number)
  | .saveTables _ | .writeSetup _ => none

/-- The counter an ended operation raises. -/
def StoreCounters.ended (c : StoreCounters) (k : OpKind) (o : OpOutcome) : StoreCounters :=
  match k with
  | .erasePage => { c with pagesErased := sat32 c.pagesErased }
  | .writePage => { c with pagesProgrammed := sat32 c.pagesProgrammed }
  | .publish =>
    if o = .ok then { c with publishes := sat32 c.publishes } else { c with failedPublishes := sat32 c.failedPublishes }
  | .remove => { c with removes := sat32 c.removes }
  | .saveTables => { c with saves := sat32 c.saves }
  | .writeSetup => c

/-- STORE_DONE: the operation ends, with its last operation record (R182). -/
def State.endOp (s : State) (op : Operation) (o : OpOutcome) (value : Nat) : State :=
  let k := op.body.kind
  ((s.modStore fun t =>
    { t with op := none,
             last := some { kind := k, port := op.port, subject := op.body.subject, outcome := o, value := value } }).report
    .storeDone op.body.subject (some k.code) (some o.code)).countStore (·.ended k o)

/-- The operation in progress goes on with a new body. -/
def State.setOp (s : State) (op : Operation) (b : OpBody) : State :=
  s.modStore fun t => { t with op := some { op with body := b } }

/-! ### Install (R174, R175) -/

/-- Step 1 of an install: the live version of a programme is replaced, and retires while a player references it (R174,
R175). -/
def State.replaceLive (s : State) (g : ProgId) : State :=
  match s.live? g with
  | none => s
  | some old =>
    if 0 < old.references then
      (s.setPages old.pages .retiring).modDir g fun d => { d with live := none, retiring := some old }
    else
      (((s.setPages old.pages .dirty).modDir g fun d => { d with live := none }).report .versionReclaimed
        (some (.programme g.number)) (some old.version) (some old.pageCount)).countStore
        fun c => { c with reclaims := sat32 c.reclaims }

/-- The live version of a programme is replaced by another or by none (R174, R175). -/
def State.install (s : State) (g : ProgId) (new : Option Version) : State :=
  match new with
  | none => s.replaceLive g
  | some v => ((s.replaceLive g).setPages v.pages .live).modDir g fun d => { d with live := some v }

/-! ### Publish validation (R173) -/

/-- The header of a script's first 32 bytes (R197). -/
def headerOf (b : List Byte) (first : Nat) : Header :=
  { programme := at1 b 0,
    version := { version := at2 b 2, firstPage := first, pageCount := pagesOfCues (at2 b 6), cueCount := at2 b 6,
                 axisMask := byteAt b 1, priority := at1 b 8, latestStart := at2 b 4, references := 0 } }

/-- The header check: its failing outcome and value (R173). -/
def State.checkHeader (s : State) (g : ProgId) (h : Header) : Option (OpOutcome × Nat) :=
  let v := h.version
  if h.programme ≠ g.number ∨ v.version = 0 ∨ 7 < v.priority ∨ 600 < v.latestStart ∨ v.cueCount = 0 ∨ 4092 < v.cueCount ∨
      512 < v.firstPage + v.pageCount then some (.badHeader, 0)
  else if (s.live? g).any (fun (w : Version) => w.version == v.version) then some (.sameVersion, 0)
  else (v.pages.find? fun p => s.pageState p != some .draft).map fun p => (.notDraft, p)

/-- A cue's record passes its own kind's checks, with `depth` loops open; the depth after it (R173). -/
def cueDepth? (mask : BitVec 8) (last : Bool) (depth : Nat) (r : Record) (b : List Byte) : Option Nat :=
  if r.misplaced last then none
  else
    match r with
    | .noKind => none
    | .loopBegin d n => if d = 0 ∧ n ≠ 0 ∧ depth < Config.loopDepth then some (depth + 1) else none
    | .loopEnd d => if d = 0 ∧ 0 < depth then some (depth - 1) else none
    | .play _ q =>
      let ok := match q with
        | .strike bell v => bell ≤ 23 && 1 ≤ v && v ≤ 127
        | .roll bell v i j n =>
          bell ≤ 23 && 1 ≤ v && v ≤ 127 && 2 ≤ i && i ≤ 200 && 2 ≤ j && j ≤ 200 && 2 ≤ n
        | .move a _ p _ => mask.getLsbD a && p ≤ 15 && (flagOf (byteAt b 7)).isSome
        | .waitAxis a t => mask.getLsbD a && t != 0
        | .mark _ => true
        | .endShow => depth == 0
      if ok then some depth else none

/-- Checks the cues `i` to `i + n - 1` of a version in index order: the depth after them, or the first that fails (R173). -/
def checkCues (m : Nvm) (v : Version) : Nat → Nat → Nat → Except Nat Nat
  | 0, _, depth => .ok depth
  | n + 1, i, depth =>
    let at_ := recordAt v.firstPage i
    let b := m.bytes (512 * at_.1 + at_.2) 8
    match cueDepth? v.axisMask (i + 1 == v.cueCount) depth (recordOf b) b with
    | some d => checkCues m v n (i + 1) d
    | none => .error i

/-- The bytes of a version's script: header and cues. -/
def Version.scriptBytes (v : Version) : Nat := 32 + 8 * v.cueCount

/-- The index of the first cue a read from a byte offset of the script holds, and of the first behind `bytes`. -/
def cuesBelow (bytes : Nat) : Nat := (bytes - 32) / 8

/-- A validation read of a publish completes (R172 to R174): the header on the first, the cues it holds, then the install.
Each read is of 64 bytes, the last of what is left (log 28). -/
def State.publishRead (s : State) (op : Operation) (g : ProgId) (first : Nat) (header : Option Header)
    (done depth : Nat) : State :=
  let h := header.getD (headerOf (s.store.nvm.bytes (512 * first) 32) first)
  match (match header with | none => s.checkHeader g h | some _ => none) with
  | some (o, value) => s.endOp op o value
  | none =>
    let v := h.version
    let next := min (done + 64) v.scriptBytes
    match checkCues s.store.nvm v (cuesBelow next - cuesBelow done) (cuesBelow done) depth with
    | .error i => s.endOp op .invalid i
    | .ok d =>
      if next < v.scriptBytes then
        (s.setOp op (.publish g first (.validating (some h) next d))).modStore fun t => { t with ownRead := true }
      else
        let s1 := s.install g (some v)
        (s1.setOp op (.publish g first (.rewriting v.version (s1.dirImage (dirPage g))))).enterPhase .erase

/-! ### Phases of an operation (R163, R167 to R178) -/

/-- The page an operation's phase erases or programs. -/
def OpBody.page : OpBody → Nat
  | .erasePage p | .writePage p => p
  | .publish g _ _ | .remove g _ => dirPage g
  | .saveTables ((p, _) :: _) => p
  | .saveTables [] => 0
  | .writeSetup _ => 0

/-- An erase phase ends: the page is erased, and the operation goes on (R163, R167). -/
def State.eraseDone (s : State) : State :=
  match s.store.op with
  | none => s.modStore fun t => { t with array := .idle }
  | some op =>
    let s1 := s.modStore fun t => { t with array := .idle, nvm := t.nvm.erasePage op.body.page }
    match op.body with
    | .erasePage p => (s1.setPage p .free).endOp op .ok 0
    | _ => s1.enterPhase .program

/-- A program phase ends: the page is programmed, and the operation goes on or ends (R163, R168, R174 to R178). -/
def State.programDone (s : State) : State :=
  let prog (image : List Byte) (op : Operation) : State :=
    s.modStore fun t => { t with array := .idle, nvm := t.nvm.programPage op.body.page image }
  match s.store.op with
  | none => s.modStore fun t => { t with array := .idle }
  | some op =>
    match op.body with
    | .writePage p => ((prog s.store.staging.toList op).setPage p .draft).endOp op .ok 0
    | .publish _ _ (.rewriting version image) => (prog image op).endOp op .ok version
    | .remove _ image => (prog image op).endOp op .ok 0
    | .saveTables ((_, image) :: rest) =>
      let s1 := prog image op
      if rest.isEmpty then s1.endOp op .ok 0 else (s1.setOp op (.saveTables rest)).enterPhase .erase
    | .writeSetup image => (prog image op).endOp op .ok 0
    | _ => s.modStore fun t => { t with array := .idle }

/-! ### Requests of operations -/

/-- An operation begins in its first phase (R162). -/
def State.beginOp (s : State) (port : PortId) (b : OpBody) (k : PhaseKind) : State :=
  (s.modStore fun t => { t with op := some { port := port, body := b } }).enterPhase k

/-- A page lies in a region of the protection mask (R167). -/
def State.protects (s : State) (page : Nat) : Bool := s.store.setup.protection.getLsbD (page / 32)

/-- The checks ERASE_PAGE and WRITE_PAGE share (R167). -/
def State.pageRefusal (s : State) (page : Nat) : Option ResultCode :=
  if 511 < page then some .badArg
  else if s.store.op.isSome then some .busy
  else if page < 8 ∨ s.protects page then some .isProtected
  else if s.pageState page = some .live ∨ s.pageState page = some .retiring then some .pinned
  else none

/-! ### LOADING (R179, R180) -/

/-- The pages of a LIVE version become LIVE (R180). -/
def State.mapLive (s : State) : State :=
  allProgs.foldl (fun s g => match s.live? g with | some v => s.setPages v.pages .live | none => s) s

/-- The next programme page from `p` on that no LIVE version owns. DESIGN CHOICE (unsafe, log 32): R180 gives the blank tests
no order; they are made in ascending page number. -/
def State.nextTest? (s : State) (p : Nat) : Option Nat :=
  (List.range (512 - p)).map (p + ·) |>.find? fun q => s.pageState q != some .live

/-- Start-up homing (R134): requested for every UNHOMED axis; those that cannot begin are listed. -/
def State.startupHoming (s : State) : State :=
  if s.store.setup.autoHome ∧ s.stage.mode = .auto then
    allAxes.foldl (fun s a =>
      if (s.axis a).state = .unhomed then
        let s1 := s.requestHoming a
        if (s1.axis a).state = .unhomed then s1.modStage fun g => { g with startup := g.startup ++ [a] } else s1
      else s) s
  else s

/-- The fault flags as a mask (R196). -/
def Store.faultMask (t : Store) : Nat := boolCode t.setupFault + 2 * boolCode t.dirFault + 4 * boolCode t.tableFault

/-- The number of LIVE programmes (R182). -/
def State.liveCount (s : State) : Nat := (allProgs.filter fun g => (s.live? g).isSome).length

/-- LOADING ends: READY, STORE_LOADED, the calendar's evaluation, start-up homing (R180). -/
def State.endLoading (s : State) : State :=
  let s1 := (s.modStore fun t => { t with ready := true, load := .done, blankLeft := none }).report .storeLoaded none
    (some s.store.faultMask) (some s.liveCount)
  ((s1.recomputeSeason).evaluate s1.backup.wallMs).startupHoming

/-- The blank test goes to the next page from `p` on, or LOADING ends (R180). -/
def State.testFrom (s : State) (p : Nat) : State :=
  match s.nextTest? p with
  | some q => s.modStore fun t => { t with load := .testing q, blankLeft := some Config.blankTicks }
  | none => s.endLoading

/-- A system page that has been read is delivered: setup, directory or tables (R179). -/
def State.takeSystemPage (s : State) (page : Nat) : State :=
  match page with
  | 0 => s.loadSetup
  | 1 | 2 => s.loadDirectory page
  | _ => s.loadTable page

/-- A page has been read whole and is delivered; the sequence goes on (R179). -/
def State.deliverPage (s : State) (page : Nat) : State :=
  if page < 7 then (s.takeSystemPage page).modStore fun t => { t with load := .reading (page + 1) 0, ownRead := true }
  else ((s.takeSystemPage page).mapLive).testFrom 8

/-- The bytes of a page that LOADING reads, 64 at a time: of page 0 only the first 64, which hold the record (R198,
log 28). -/
def loadLength (page : Nat) : Nat := if page = 0 then 64 else 512

/-- The store's own read completes (R164). -/
def State.ownReadDone (s : State) : State :=
  match s.store.op with
  | some op =>
    match op.body with
    | .publish g first (.validating header done depth) => s.publishRead op g first header done depth
    | _ => s
  | none =>
    match s.store.load with
    | .reading page n =>
      if n + 64 < loadLength page then
        s.modStore fun t => { t with load := .reading page (n + 64), ownRead := true }
      else s.deliverPage page
    | _ => s

/-- The blank test of a programme page ends (R180). -/
def State.blankTestDone (s : State) (p : Nat) : State :=
  (s.setPage p (if s.store.nvm.isBlank p then .free else .dirty)).testFrom (p + 1)

/-! ### Reads (R164, R169) -/

/-- The bytes of a port's response slot as a read returns them (R187, R196). -/
def Response.bytes (r : Response) : List Byte :=
  u8 r.status.code ++ u8 r.result.code ++ u16 r.data.length ++ r.data

/-- A READ_STORE of a page is answered (R169, R185), and a held read with it (R188). -/
def State.answerRead (s : State) (p : PortId) (data : List Byte) : State :=
  (s.respond p .ok data).modPort p fun c =>
    match c.hold with
    | some _ => { c with hold := none, lastRead := c.response.bytes }
    | none => c

/-- Queues a READ_STORE of a page: by instant, requests of one instant by port (R164). -/
def placeRead (r : PortRead) : List PortRead → List PortRead
  | [] => [r]
  | x :: q =>
    if r.instant < x.instant ∨ (r.instant = x.instant ∧ r.port.idx < x.port.idx) then r :: x :: q else x :: placeRead r q

/-- The data of a read goes to its requester (R164). -/
def State.deliverRead (s : State) (f : InFlight) : State :=
  match f.who with
  | .channel p => s.blockComplete p
  | .port p => s.answerRead p (s.store.nvm.bytes (512 * f.page + f.offset) f.length)
  | .store => s.ownReadDone

/-- The read in flight completes (R164): its data goes to the requester, then a waiting phase begins or a suspended erase
resumes (R163, R165). -/
def State.completeRead (s : State) (f : InFlight) : State :=
  (((s.modStore fun t => { t with path := none }).deliverRead f).beginPhase).resumeErase

/-! ### What a main reset leaves (R181) -/

/-- The page a main reset spoils: that of the operation in progress, unless it is a publish that still reads. -/
def Operation.cutPage? (op : Operation) : Option Nat :=
  match op.body with
  | .publish _ _ (.validating _ _ _) => none
  | b => some b.page

/-- The array after a main reset that cuts an operation (R181). -/
def Store.afterCut (t : Store) : Nvm :=
  match t.op with
  | none => t.nvm
  | some op =>
    match op.cutPage? with
    | some p => t.nvm.cutPage p
    | none => t.nvm

end Sys2Proof.Machine
end

