-- ==== Sys2Proof/Machine/Stage.lean ====
section
/-! DEFINITION. Stage control (R152 to R158), the timebase (R2, R8, R9, R11 to R14) and the resets (R5, R18, R19). -/

namespace Sys2Proof.Machine

/-! ### Freeze (R2, R156, R157) -/

/-- FROZEN is set (R2). -/
def State.setFrozen (s : State) : State :=
  s.modTime fun t => { t with frozen := true, freezeStage := t.stageTime, frozenMs := 0 }

/-- FROZEN is cleared; the freeze record keeps its values (R2). -/
def State.clearFrozen (s : State) : State := s.modTime fun t => { t with frozen := false }

/-- FREEZE_ENDED: cause 0 THAW, 1 HALT (R159). -/
def State.endFreeze (s : State) (halt : Bool) : State :=
  (s.clearFrozen).report .freezeEnded none (some (boolCode halt)) (some s.time.frozenMs)

/-- The freeze limit in milliseconds (R157). -/
def State.freezeLimitMs (s : State) : Nat := s.store.setup.freezeLimit * 60000

/-! ### Modes (R152, R153) -/

/-- A change of mode: the start-up list is emptied on leaving AUTO, the change is reported, an admission attempt and the
tests of the held moves follow (R134, R152). -/
def State.changeMode (s : State) (m : StageMode) (c : ModeCause) : State :=
  let s1 := s.modStage fun g => { g with mode := m, startup := if m = .auto then g.startup else [] }
  ((s1.report .modeChanged none (some m.code) (some c.code)).oweAttempt).oweReeval

/-- What entry to HALTED ends: moves and homings, players, queued starts, strikes and rolls (R153). -/
def State.haltWork (s : State) : State :=
  let s1 := (s.modStage fun g => { g with mode := .halted, startup := [] }).haltAxes
  (allPlayers.foldl (fun s p => s.abortPlayer p .halted) s1).flushStarts.flushAllStrikes

/-- A freeze under way ends by the halt (R153, R156). -/
def State.haltFreeze (s : State) : State := if s.time.frozen then s.endFreeze true else s

/-- Entry to HALTED (R153). -/
def State.enterHalted (s : State) (c : ModeCause) : State :=
  ((s.haltWork.haltFreeze).changeMode .halted c).countStage fun k => { k with halts := sat32 k.halts }

/-! ### The wall clock (R8, R9, R11 to R14) -/

/-- The clock advances by `k` milliseconds, unless that carries it into a new minute, which is a step of its own (R8). -/
def Backup.advance (b : Backup) (k : Nat) : Backup :=
  if (b.wallMs + k) / 60000 = b.wallMs / 60000 then { b with wallMs := b.wallMs + k } else { b with boundaryAhead := k }

/-- 10 µs of real time at the wall clock. During a slew the milliseconds are those of the slew period, so that no
millisecond of real time holds two advances; the advance of the period's last one is left to the period's end (R12, log
3). -/
def Backup.clockTick (b : Backup) : Backup :=
  if b.slewRemainder = 0 then
    if b.wallSub + 1 < 100 then { b with wallSub := b.wallSub + 1, slewElapsed := 0 }
    else { b with wallSub := 0, slewElapsed := 0 }.advance 1
  else
    let e := b.slewElapsed + 1
    let b1 := { b with wallSub := e % 100, slewElapsed := e }
    if e % 100 ≠ 0 ∨ Config.slewTicks ≤ e then b1 else b1.advance 1

/-- A slew period has ended (R12). -/
def Backup.slewPeriodOver (b : Backup) : Bool := b.slewRemainder != 0 && Config.slewTicks ≤ b.slewElapsed

/-- The end of a slew period: the clock advances by 2 ms or not at all, and the remainder moves by one (R12). -/
def Backup.endSlewPeriod (b : Backup) : Backup :=
  if 0 < b.slewRemainder then { b with slewElapsed := 0, slewRemainder := b.slewRemainder - 1 }.advance 2
  else { b with slewElapsed := 0, slewRemainder := b.slewRemainder + 1 }

/-- The clock is about to enter a new minute, and that minute lies beyond 2099 (R9). -/
def Backup.rollsOver (b : Backup) : Bool := 0 < b.boundaryAhead && Config.centuryMs ≤ b.wallMs + b.boundaryAhead

/-- Boundaries are delivered from READY on (R6). -/
def State.delivers (s : State) : Bool := s.running && s.store.ready

/-- The clock enters a new minute, which is delivered (R6, R8). -/
def State.passBoundary (s : State) : State :=
  let s1 := s.modBackup fun b => { b with wallMs := b.wallMs + b.boundaryAhead, boundaryAhead := 0 }
  if s1.delivers then s1.deliverBoundary (s1.backup.wallMs / 60000) else s1

/-- The clock rolls over (R9, R23): the boundary into 2000-01-01 00:00 is delivered as any other. DESIGN CHOICE (unsafe, log
23): CLOCK_LOST is reported before SEASON_CHANGED. -/
def State.rollOver (s : State) : State :=
  let s1 := s.modBackup fun b =>
    { b with wallMs := 0, boundaryAhead := 0, validity := .invalid, slewRemainder := 0, slewElapsed := 0 }
  if s1.running then
    let s2 := (s1.report .clockLost none (some 0)).recomputeSeason
    if s2.delivers then s2.deliverBoundary 0 else s2
  else s1

/-- A number of milliseconds clamped for a report (R11, R14). -/
def clampReport (d : Int) : Int := max (-Config.reportLimit) (min d Config.reportLimit)

/-- A slew path that corrects nothing: a slew under way ends, an advance that is still to be made (into a new minute, or of
the last millisecond of a slew period) is that of one ordinary millisecond, and the clock runs on (R12, R13, log 3). It is a
boundary only where that one millisecond changes the minute (R8). -/
def Backup.slewNothing (b : Backup) : Backup :=
  let b1 := { b with slewRemainder := 0, slewElapsed := 0, boundaryAhead := 0 }
  if 0 < b.boundaryAhead || b.slewPeriodOver then b1.advance 1 else b1

/-- A slew path by `d`, measured against the clock as it reads: an advance that reading does not hold yet (into a new
minute, or of the last millisecond of a slew period) is abandoned with the earlier correction, and the new slew period
counts from the reading (R12, R13, log 3). -/
def Backup.slewBy (b : Backup) (d : Int) : Backup :=
  { b with slewRemainder := d, slewElapsed := 0, boundaryAhead := 0 }

/-- The slew path (R12, R13). -/
def State.slewClock (s : State) (d : Int) : State :=
  s.modBackup fun b => if d = 0 then b.slewNothing else b.slewBy d

/-- The step path (R14): the clock is set, the step reported, the season recomputed and the calendar evaluated. -/
def State.stepClock (s : State) (target : Nat) (d : Int) : State :=
  let before := s.backup.validity
  let s1 := s.modBackup fun b =>
    { b with wallMs := target, wallSub := 0, boundaryAhead := 0, validity := .valid, slewRemainder := 0, slewElapsed := 0 }
  let s2 := (s1.report .timeStepped none (some (clampReport d)) (some before.code)).recomputeSeason
  if s2.store.ready then s2.evaluate target else s2

/-! ### Restraints (R158) -/

/-- Both restraints are replaced (R158). -/
def State.setRestraints (s : State) (ceiling : Nat) (mute : Bool) : State :=
  let s1 := s.modBackup fun b => { b with ceiling := ceiling, mute := mute }
  let s2 := if mute && !s.backup.mute then s1.muteDueStrikes else s1
  if ceiling = s.backup.ceiling ∧ mute = s.backup.mute then s2
  else s2.report .restraintChanged none (some ceiling) (some (boolCode mute))

/-! ### Resets (R5, R18, R19) -/

/-- The store after a main reset: its main-reset values over what R181 leaves of the array, and the fault flags, which stay
as set until LOADING begins (R180; through a loss of main power too, log 35). -/
def Store.afterReset (t : Store) : Store :=
  { Store.initial t.afterCut with setupFault := t.setupFault, dirFault := t.dirFault, tableFault := t.tableFault }

/-- A main reset: everything outside the backup domain takes its main-reset value (R19), the store that of
`Store.afterReset`, and the inputs and the waiting commands stay. The mode follows the HALT input (R152). -/
def State.mainReset (s : State) : State :=
  { State.reset with
    pending := s.pending, pins := s.pins, backup := s.backup,
    stage := { Stage.initial with mode := if s.pins.haltIn then .halted else .auto },
    store := s.store.afterReset }

/-- A backup reset, always with a main reset (R18). -/
def State.backupReset (s : State) : State := { s with backup := Backup.initial }.mainReset

/-- The stabilisation interval has run its 16 ms (R5). -/
def State.stabilised (s : State) : Bool :=
  s.time.osc == .stabilising && s.pins.mainPower && !s.pins.resetIn && Config.stabTicks ≤ s.time.stabElapsed

/-- LOADING begins, with the fault flags of the one before cleared (R179, R180). -/
def Store.beginLoading (t : Store) : Store :=
  { t with load := .reading 0 0, ownRead := true, setupFault := false, dirFault := false, tableFault := false }

/-- The end of stabilisation: the oscillator runs, a backup reset is reported once, and LOADING begins (R5, R15, R179). -/
def State.endStabilisation (s : State) : State :=
  let s1 := s.modTime fun t => { t with osc := .running, stabElapsed := 0 }
  let s2 := if s1.backup.lossToReport then
      (s1.report .clockLost none (some 1)).modBackup fun b => { b with lossToReport := false }
    else s1
  s2.modStore Store.beginLoading

end Sys2Proof.Machine
end

