-- ==== Sys2Proof/Machine/Readout.lean ====
section
/-! DEFINITION. The data of responses: the readouts, the event record and the counters, coded by R195 and R196 in the order
of each rule's table or list (log 13 gives the layouts the spec leaves to that rule). -/

namespace Sys2Proof.Machine

/-- A wall time, 9 bytes (R195). -/
def wallBytes (ms : Nat) : List Byte :=
  let w := wallFields ms
  u16 w.date.year ++ u8 w.date.month ++ u8 w.date.day ++ u8 w.hour ++ u8 w.minute ++ u8 w.second ++ u16 w.millisecond

/-! ### The event record (R196) -/

/-- Detail 1 is carried in the 4-byte extension. -/
def EventKind.longDetail1 : EventKind → Bool
  | .timeStepped => true
  | _ => false

/-- Detail 2 is carried in the 4-byte extension. -/
def EventKind.longDetail2 : EventKind → Bool
  | .calendarFired | .calendarSkipped => true
  | _ => false

/-- The three bytes of a detail: 0xFF when absent or carried in the extension. -/
def detailBytes (long : Bool) (d : Option Int) : List Byte :=
  match d with
  | some z => if long then List.replicate 3 0xFF#8 else twosLow 3 z
  | none => List.replicate 3 0xFF#8

/-- The extension of a detail. -/
def extensionBytes (long : Bool) (d : Option Int) : List Byte :=
  match d with
  | some z => if long then twosLow 4 z else []
  | none => []

/-- The 28 bytes of an event record, then its extension (R196). -/
def EventRecord.bytes (r : EventRecord) : List Byte :=
  u8 r.kind.class.code ++ u8 r.kind.code ++
  u8 (boolCode r.wall.isSome + 2 * boolCode r.subject.isSome + 4 * boolCode r.detail1.isSome +
      8 * boolCode r.detail2.isSome) ++
  (match r.wall with | some w => wallBytes w | none => List.replicate 9 0xFF#8) ++ u48 r.stage ++
  (match r.subject with | some x => u8 x.code.1 ++ u16 x.code.2 | none => List.replicate 3 0xFF#8) ++ [0xFF#8] ++
  detailBytes r.kind.longDetail1 r.detail1 ++ detailBytes r.kind.longDetail2 r.detail2 ++
  extensionBytes r.kind.longDetail1 r.detail1 ++ extensionBytes r.kind.longDetail2 r.detail2

/-! ### GET_STATUS (R189) -/

/-- The erase time remaining in milliseconds (R163, R189; its rounding is free, log 9). DESIGN CHOICE (unsafe, log 9): while
the array is IDLE or PROGRAMMING, when there is no such time, it is 0, with no presence byte. -/
def ArrayActivity.eraseMs : ArrayActivity → Nat
  | .erasing left | .suspended left =>
    if left % 100 ≠ 0 ∧ Config.eraseRoundsUp left then left / 100 + 1 else left / 100
  | _ => 0

/-- The subject of the last operation: its number in two bytes, for a programme too, and no kind byte, since the operation
kind says which it is. DESIGN CHOICE (unsafe, log 13): R182 and R189 do not lay it out. -/
def subjectBytes (x : Subject) : List Byte := u16 x.code.2

/-- The last operation record (R182), its subject an optional field. -/
def LastOp.bytes (l : LastOp) : List Byte :=
  u8 l.kind.code ++ u8 (PortId.code l.port) ++ opt 2 subjectBytes l.subject ++ u8 l.outcome.code ++ u16 l.value

/-- The data of GET_STATUS from a port. -/
def State.statusBytes (s : State) (p : PortId) : List Byte :=
  let c := s.port p
  let t := s.store
  u8 c.queue.length ++ flag c.lost ++ [c.routing] ++ u32 c.counters.overruns ++
  u8 (boolCode t.ready) ++ flag t.setupFault ++ flag t.dirFault ++ flag t.tableFault ++
  opt 1 (fun (o : Operation) => u8 o.body.kind.code) t.op ++ u8 t.array.code ++ u8 t.array.eraseMs ++
  u8 (boolCode t.path.isSome) ++ opt 8 LastOp.bytes t.last ++
  u8 s.stage.mode.code ++ flag s.time.frozen ++ u8 s.backup.ceiling ++ flag s.backup.mute ++
  u8 s.backup.validity.code ++ flag s.hammer.supplyRange ++
  (allPlayers.flatMap fun q => u8 (s.player q).state.code) ++ u8 s.shows.queue.length ++ u8 s.strikes.queue.length

/-! ### READ_CLOCK (R16) -/

def State.clockBytes (s : State) : List Byte :=
  wallBytes s.backup.wallMs ++ u8 (weekdayOfDay (s.backup.wallMs / 86400000)) ++ u8 s.backup.validity.code ++
  i16 s.backup.slewRemainder ++ u48 s.time.stageTime ++ flag s.time.frozen ++ u48 s.time.freezeStage ++
  u32 s.time.frozenMs ++ u8 s.time.osc.code

/-! ### READ_PLAYER (R46, R62, R76) -/

/-- The fetch address (R63, R64); the table's formula also at AT_END and behind a show that has ended, and page 0 and offset 0
until the channel's first admission. DEDUCED and DESIGN CHOICE (unsafe, log 22). -/
def Channel.address (c : Channel) : Nat × Nat := if c.pageCount = 0 then (0, 0) else recordAt c.firstPage c.next

def LoopEntry.bytes (e : LoopEntry) : List Byte := u16 e.returnIndex ++ u8 e.passesLeft

/-- The channel's items (R76). DESIGN CHOICE (unsafe, log 13): the loop stack's entries stand behind a one-byte count of
them, which neither R76 nor R195 names. -/
def Channel.bytes (c : Channel) : List Byte :=
  u8 c.state.code ++ u8 c.read.code ++ u16 c.next ++ u16 c.address.1 ++ u16 c.address.2 ++ u16 c.remaining ++
  u8 c.loops.length ++ c.loops.reverse.flatMap LoopEntry.bytes ++ u8 c.fill ++ u32 c.blocksRead ++ u32 c.storeWaits

def PlayerCounters.bytes (c : PlayerCounters) : List Byte :=
  u32 c.dispatched ++ u32 c.starved ++ u32 c.movesSkipped ++ u32 c.waitTimeouts

/-- R62's list, with the FIFO fill and the channel state, then R76's whole list, which gives those two again (log 13). -/
def State.playerBytes (s : State) (p : PlayerId) : List Byte :=
  let x := s.player p
  let c := s.channel p
  u8 x.state.code ++ u8 x.programme ++ u16 x.version ++ u8 x.priority ++ u8 x.source ++ u32 x.admission ++ u48 x.start ++
  u32 x.waiting ++ u32 x.lastDue ++ u32 x.headDue ++ opt 1 (fun r => u8 (WaitReason.code r)) x.reason ++
  opt 1 (fun (a : AxisId) => u8 a.val) x.awaited ++ opt 6 u48 x.deadline ++
  opt 1 (fun o => u8 (ShowOutcome.code o)) x.outcome ++ x.counters.bytes ++ u32 x.showTime ++ u8 c.fill ++
  u8 c.state.code ++ c.bytes

/-! ### READ_QUEUE (R62, R104) -/

/-- A queued start (R36). -/
def StartEntry.bytes (e : StartEntry) : List Byte :=
  u8 e.programme.number ++ u8 e.priority ++ u8 e.source.code ++ opt 4 u32 e.stamp ++ u48 e.arrival ++ u48 e.expiry

/-- The number of entries, then the entries, then their remaining times in stage ticks (R62). -/
def State.startQueueBytes (s : State) : List Byte :=
  u8 s.shows.queue.length ++ s.shows.queue.flatMap StartEntry.bytes ++
  s.shows.queue.flatMap fun e => u32 (e.expiry - s.time.stageTime)

/-- A strike entry (R79). DESIGN CHOICE (unsafe, log 13): an owner of none is coded as an absent optional field; no rule
gives it a code. -/
def StrikeEntry.bytes (e : StrikeEntry) : List Byte :=
  u8 e.bell.val ++ u8 e.velocity ++ u16 e.drive ++ u16 e.flight ++ u48 e.sound ++ u48 e.launch ++ u48 e.latest ++
  u48 e.guardEnd ++ opt 1 (fun (p : PlayerId) => u8 p.val) e.owner ++ opt 1 (fun (r : RollId) => u8 r.val) e.slot ++
  u32 e.number

def Roll.bytes (x : Roll) : List Byte :=
  u8 x.owner.val ++ u8 x.bell.val ++ u8 x.velocity ++ u8 x.intervalA ++ u8 x.intervalB ++ u8 x.next.code ++
  u48 x.nextSound ++ u8 x.remaining

/-- The strike queue and the four roll slots (R104), a slot's state FREE 0 or ACTIVE 1. DESIGN CHOICE (unsafe, log 13): the
state byte serves as the presence byte of all the fields an ACTIVE slot holds, and for a FREE slot their 13 bytes read 0xFF;
R95 calls none of them optional. -/
def State.strikeQueueBytes (s : State) : List Byte :=
  u8 s.strikes.queue.length ++ s.strikes.queue.flatMap StrikeEntry.bytes ++
  allRolls.flatMap fun r => opt 13 Roll.bytes (s.roll r)

/-! ### READ_BELL (R77, R104, R121) -/

/-- Drive start and drive time, outside REST. -/
def HammerState.pulse? : HammerState → Option (Nat × Nat)
  | .rest => none
  | .driving start drive _ | .flight start drive | .recovering start drive _ => some (start, drive)

def HammerState.slot? : HammerState → Option Nat
  | .driving _ _ k => some k
  | _ => none

/-- Drive end, while the contact window stands. -/
def HammerState.windowFrom? : HammerState → Option Nat
  | .flight start drive => some (start + drive)
  | _ => none

def HammerState.rest? : HammerState → Option Nat
  | .recovering _ _ r => some r
  | _ => none

def Hammer.bytes (h : Hammer) : List Byte :=
  u8 h.state.code ++ opt 6 (fun (x : Nat × Nat) => u48 x.1) h.state.pulse? ++
  opt 2 (fun (x : Nat × Nat) => u16 x.2) h.state.pulse? ++ opt 6 (fun (x : Nat × Nat) => u48 (x.1 + x.2)) h.state.pulse? ++
  opt 1 u8 h.state.slot? ++ opt 6 (fun n => u48 (n + Config.windowOpen)) h.state.windowFrom? ++
  opt 6 (fun n => u48 (n + Config.windowClose)) h.state.windowFrom? ++ opt 6 u48 h.state.rest? ++
  opt 8 (fun (x : Nat × Nat) => u48 x.1 ++ u16 x.2) h.lastContact

def State.bellBytes (s : State) (b : BellId) : List Byte :=
  let x := s.bell b
  u8 x.state.code ++ u16 x.driveMin ++ u16 x.driveMax ++ u16 x.recover ++ u16 x.flightInit ++ u16 x.flight ++
  u8 x.velocityCap ++ x.outputPolarity.bytes Polarity.code ++ x.contactPolarity.bytes Polarity.code ++ u8 x.misses ++
  u32 x.launched ++ u16 x.ceiling ++ opt 6 u48 x.guardEnd ++
  u8 (s.strikes.queue.filter fun e => e.bell == b).length ++ opt 1 (fun (r : RollId) => u8 r.val) (s.rollOf? b) ++
  (s.hammerOf b).bytes ++ u48 s.time.hammerTime ++ u16 s.hammer.uRaw ++ flag s.hammer.supplyRange

/-! ### READ_AXIS (R122, R123, R126, R144) -/

/-- A pending move, 19 bytes: held is a flag, and the hold start an optional field behind it (R126). -/
def PendingMove.bytes (m : PendingMove) : List Byte :=
  i16 m.target ++ flag m.clamped ++ u8 m.profile.val ++ u48 m.due ++ u8 m.owner.code ++
  flag m.held.isSome ++ opt 6 u48 m.held

def Homing.bytes (h : Homing) : List Byte := u8 h.phase.code ++ u16 h.travel ++ u8 h.origin.code

/-- R144's list: the configuration, every runtime field in the order of R123's table, the pending move, which that table
gives too (log 13), and the level of the home switch. -/
def State.axisReadBytes (s : State) (a : AxisId) : List Byte :=
  let x := s.axis a
  axisBytes x.config ++ u8 x.state.code ++ i16 x.position ++ flag x.positionValid ++ u16 x.velocity ++
  u16 x.stepAccumulator ++ u16 x.speedRemainder ++ u8 x.lastAction.code ++ i16 x.target ++ flag x.clamped ++
  profileBytes x.profile ++ u8 x.owner.code ++ opt 1 (fun (k : Stop) => u8 k.kind.code) x.stop ++
  opt 1 (fun (k : Stop) => u8 k.cause.code) x.stop ++ opt 4 Homing.bytes x.homing ++
  opt 2 (fun (p : Passage) => u8 p.side.code ++ flag p.edgeSeen) x.passage ++
  opt 1 (fun (p : PlayerId) => u8 p.val) x.claim ++ opt 19 PendingMove.bytes x.slot ++
  opt 1 (fun r => u8 (FaultReason.code r)) x.fault ++ opt 19 PendingMove.bytes x.slot ++ u8 (Level.code s.pins.switch[a])

/-! ### READ_ENTRY (R35, R125, R151, R170) -/

def State.calendarBytes (s : State) (k : CalId) : List Byte :=
  let e := s.calendar.entries[k]
  flag e.enabled ++ u8 e.programme ++ u8 e.kind.code ++ u8 e.hour ++ u8 e.minute ++ u8 e.hourlyMinute ++
  u8 e.firstHour ++ u8 e.lastHour ++ u16 e.interval ++ u16 e.windowFirst ++ u16 e.windowLast ++ [e.weekdays] ++
  le 2 e.seasons.toNat ++ u8 e.priority ++ u8 e.silent.code ++ opt 4 u32 s.backup.stamps[k]

def State.seasonReadBytes (s : State) (k : SeasonId) : List Byte :=
  seasonBytes s.calendar.seasons[k] ++ u8 s.calendar.active ++
  opt 1 (fun (i : SeasonId) => u8 i.val) (if s.calendar.active = 0 then none else s.calendar.activeEntry)

def State.interlockReadBytes (s : State) (k : InterlockId) : List Byte :=
  let e := s.axes.interlocks[k]
  interlockBytes e ++ flag (s.satisfied e) ++ flag (s.inside e) ++ flag (s.committed e)

def Version.bytes (v : Version) : List Byte :=
  u16 v.version ++ u16 v.firstPage ++ u8 v.pageCount ++ u16 v.cueCount ++ [v.axisMask] ++ u8 v.priority ++
  u16 v.latestStart ++ u8 v.references

def State.directoryBytes (s : State) (g : ProgId) : List Byte :=
  let d := s.dirEntry g
  u8 (boolCode d.live.isSome) ++ opt 12 Version.bytes d.live ++ opt 12 Version.bytes d.retiring

/-! ### READ_STORE (R169) -/

/-- The bytes of the staging buffer from an offset. -/
def State.stageBytes (s : State) (offset length : Nat) : List Byte :=
  (List.range length).map fun k => if h : offset + k < 512 then s.store.staging[offset + k] else 0xFF#8

/-- The page-map states from a page on. -/
def State.mapBytes (s : State) (first count : Nat) : List Byte :=
  (List.range count).flatMap fun k => match s.pageState (first + k) with | some x => u8 x.code | none => []

/-! ### READ_COUNTERS (R193) -/

def Port.counterBytes (p : Port) : List Byte :=
  u32 p.counters.requests ++ u32 p.counters.badFrames ++ u32 p.counters.overruns ++ u32 p.counters.discarded

/-- The counters of a group, `none` for an unknown group. -/
def State.counterBytes (s : State) (group : Nat) : Option (List Byte) :=
  let nums (ns : List Nat) : Option (List Byte) := some (ns.flatMap u32)
  match group with
  | 0 =>
    let c := s.calendar.counters
    nums [c.fired, c.clockInvalid, c.mode, c.silent, c.late, c.notFound, c.queueFull]
  | 1 =>
    let c := s.shows.counters
    nums [c.arrivals, c.refusedFull, c.admitted, c.expired, c.failedNotFound, c.failedHalted, c.preemptions,
          c.endedCompleted, c.endedStopped, c.endedPreempted, c.endedHalted]
  | 2 =>
    let c := s.strikes.counters
    nums [c.enqueued, c.launched, c.muted, c.late, c.flushed, c.refusedCollided, c.refusedFull, c.refusedUnavailable,
          c.rollsDegraded]
  | 3 =>
    let c := s.hammer.counters
    nums [c.contacts, c.misses, c.bellFaults, c.supplyExcursions]
  | 4 =>
    let c := s.axes.counters
    nums [c.movesStarted, c.arrivals, c.clamped, c.movesDiscarded, c.stops, c.homings, c.homeNotFound, c.slips,
          c.limitFaults]
  | 5 =>
    let c := s.stage.counters
    nums [c.halts, c.freezes, c.freezeExpiries, c.movesHeld, c.interlockTimeouts]
  | 6 =>
    let c := s.store.counters
    nums [c.pagesErased, c.pagesProgrammed, c.publishes, c.failedPublishes, c.removes, c.reclaims, c.saves,
          c.eraseSuspends]
  | 7 => some (allPorts.flatMap fun p => (s.port p).counterBytes)
  | _ => none

end Sys2Proof.Machine
end

