-- ==== Sys2Proof/Machine/Serve.lean ====
section
/-! DEFINITION. How a command is taken: the follow-ups it may find owed come first (log 1), then a request passes the checks
common to all requests (R184 to R186), and an event acts when its condition holds. -/

namespace Sys2Proof.Machine

/-- The outcome of a step. -/
abbrev Result := Host.Outcome State Fault Refusal

/-- The port acknowledges its address (R5, R183). -/
def State.listens (s : State) (p : PortId) : Bool := s.running && (s.port p).present

/-- An overrun: the write is not taken, and is counted (R186). -/
def State.overrunAt (s : State) (p : PortId) : State :=
  s.modPort p fun c => { c with counters := { c.counters with overruns := sat32 c.counters.overruns } }

/-- A request is taken: the held response is discarded, and the request counted (R185). DESIGN CHOICE (unsafe, log 33): the
request slot keeps the frame, once it is answered too, until the next request is taken. -/
def State.takeRequest (s : State) (p : PortId) (frame : List Byte) : State :=
  s.modPort p fun c =>
    { c with request := frame, response := { status := .done, result := .ok, data := [] },
             counters := { c.counters with requests := sat32 c.counters.requests } }

/-- The ports a request is permitted from (R185 catalogue). -/
def anyPort : PortId → Bool := fun _ => true
def venueOnly : PortId → Bool := fun p => p == .venue
def programmeOnly : PortId → Bool := fun p => p == .programme
def serviceOnly : PortId → Bool := fun p => p == .service
def venueOrService : PortId → Bool := fun p => p != .programme
def programmeOrService : PortId → Bool := fun p => p != .venue

/-- Checks 2 and 3 of R185, then the request's own rule. -/
def State.judge (s : State) (p : PortId) (loadingToo : Bool) (allowed : PortId → Bool) (body : State → State) : State :=
  if !s.store.ready && !loadingToo then s.respond p .notReady
  else if !allowed p then s.respond p .denied
  else body s

/-- A request written to a port (R184 to R186): nothing where the port is absent, an overrun while it is BUSY, else it is
taken. -/
def State.request (s : State) (p : PortId) (i : Instr) (loadingToo : Bool) (allowed : PortId → Bool)
    (body : State → State) : State :=
  if s.listens p then
    if (s.port p).state = .busy then s.overrunAt p
    else ((s.takeRequest p ((frameOf? i).getD [])).judge p loadingToo allowed body).close
  else s

/-- A request, after the follow-ups it finds owed. -/
def serve (s : State) (p : PortId) (i : Instr) (allowed : PortId → Bool) (body : State → State) : Result :=
  .next ((settle s).request p i false allowed body)

/-- An event, after the follow-ups it finds owed: it acts when its condition holds. -/
def event (s : State) (condition : State → Bool) (effect : State → State) : Result :=
  .next (if condition (settle s) then (effect (settle s)).close else settle s)

end Sys2Proof.Machine
end

