-- ==== Sys2Proof/Machine/ProgrammeRequests.lean ====
section
/-! DEFINITION. The meanings of the content station's requests: store pages, publishing, the calendar, seasons, profiles and
saving. -/

namespace Sys2Proof.Machine

/-- ERASE_PAGE (R167). -/
def execErasePage (port : PortId) (page : Half) (s : State) : Result :=
  serve s port (.erasePage port page) programmeOnly fun t =>
    match t.pageRefusal page.toNat with
    | some r => t.respond port r
    | none => (t.beginOp port (.erasePage page.toNat) .erase).respond port .accepted

/-- CLEAR_STAGE and LOAD_STAGE are refused from the taking of a WRITE_PAGE until its STORE_DONE (R166). -/
def State.stageBusy (s : State) : Bool :=
  match s.store.op with
  | some op => op.body.kind == .writePage
  | none => false

/-- CLEAR_STAGE (R166). -/
def execClearStage (port : PortId) (s : State) : Result :=
  serve s port (.clearStage port) programmeOnly fun t =>
    if t.stageBusy then t.respond port .busy
    else (t.modStore fun x => { x with staging := Vector.replicate 512 0xFF#8 }).respond port .ok

/-- Writes bytes into the staging buffer from an offset on. -/
def stageWrite : List Byte → Nat → Vector Byte 512 → Vector Byte 512
  | [], _, v => v
  | b :: bs, k, v => stageWrite bs (k + 1) (if h : k < 512 then v.set k b else v)

/-- LOAD_STAGE (R166). -/
def execLoadStage (port : PortId) (offset : Half) (data : List Byte) (s : State) : Result :=
  serve s port (.loadStage port offset data) programmeOnly fun t =>
    if 511 < offset.toNat ∨ 512 < offset.toNat + data.length then t.respond port .badArg
    else if t.stageBusy then t.respond port .busy
    else (t.modStore fun x => { x with staging := stageWrite data offset.toNat x.staging }).respond port .ok

/-- WRITE_PAGE (R168). -/
def execWritePage (port : PortId) (page : Half) (s : State) : Result :=
  serve s port (.writePage port page) programmeOnly fun t =>
    match t.pageRefusal page.toNat with
    | some r => t.respond port r
    | none =>
      if t.pageState page.toNat = some .free then
        (t.beginOp port (.writePage page.toNat) .program).respond port .accepted
      else t.respond port .notErased

/-- PUBLISH (R172). -/
def execPublish (port : PortId) (programme : Byte) (first : Half) (s : State) : Result :=
  serve s port (.publish port programme first) programmeOnly fun t =>
    match progId? programme.toNat with
    | none => t.respond port .badArg
    | some g =>
      if first.toNat < 8 ∨ 511 < first.toNat then t.respond port .badArg
      else if t.store.op.isSome then t.respond port .busy
      else if (t.dirEntry g).retiring.isSome then t.respond port .pinned
      else
        (t.modStore fun x =>
          { x with op := some { port := port, body := .publish g first.toNat (.validating none 0 0) },
                   ownRead := true }).respond port .accepted

/-- REMOVE (R175). -/
def execRemove (port : PortId) (programme : Byte) (s : State) : Result :=
  serve s port (.remove port programme) programmeOnly fun t =>
    match progId? programme.toNat with
    | none => t.respond port .badArg
    | some g =>
      if t.store.op.isSome then t.respond port .busy
      else if (t.live? g).isNone then t.respond port .notFound
      else if (t.dirEntry g).retiring.isSome then t.respond port .pinned
      else
        let u := t.install g none
        (u.beginOp port (.remove g (u.dirImage (dirPage g))) .erase).respond port .accepted

/-- WRITE_CALENDAR (R30): the definition is replaced, and the last-handled stamp becomes absent. -/
def execWriteCalendar (port : PortId) (index : Byte) (entry : CalendarPayload) (s : State) : Result :=
  serve s port (.writeCalendar port index entry) programmeOnly fun t =>
    match finId? 64 index.toNat, CalendarPayload.entry? entry with
    | some k, some e =>
      ((t.modCalendar fun c => { c with entries := c.entries.set k e }).setStamp k none).respond port .ok
    | _, _ => t.respond port .badArg

/-- WRITE_SEASON (R31): the entry is replaced, and the active season recomputed. -/
def execWriteSeason (port : PortId) (index : Byte) (entry : SeasonPayload) (s : State) : Result :=
  serve s port (.writeSeason port index entry) programmeOnly fun t =>
    match finId? 16 index.toNat, SeasonPayload.entry? entry with
    | some k, some e =>
      ((t.modCalendar fun c => { c with seasons := c.seasons.set k e }).recomputeSeason).respond port .ok
    | _, _ => t.respond port .badArg

/-- WRITE_PROFILE (R125). -/
def execWriteProfile (port : PortId) (index : Byte) (profile : ProfilePayload) (s : State) : Result :=
  serve s port (.writeProfile port index profile) programmeOnly fun t =>
    match finId? 16 index.toNat with
    | none => t.respond port .badArg
    | some k =>
      let r := ProfilePayload.profile profile
      if r.inRange then (t.modAxes fun x => { x with profiles := x.profiles.set k r }).respond port .ok
      else t.respond port .badArg

/-- SAVE_TABLES (R176): the images are taken in the event of the request. -/
def execSaveTables (port : PortId) (s : State) : Result :=
  serve s port (.saveTables port) programmeOrService fun t =>
    if t.store.op.isSome then t.respond port .busy
    else (t.beginOp port (.saveTables ([3, 4, 5, 6, 7].map fun p => (p, t.tableImage p))) .erase).respond port .accepted

end Sys2Proof.Machine
end

