-- ==== Sys2Proof/Machine/ReadRequests.lean ====
section
/-! DEFINITION. The meanings of the requests taken from any port: status, events, routing and readouts. -/

namespace Sys2Proof.Machine

/-- GET_STATUS (R189): also during LOADING; this port's LOST is cleared in the same event. -/
def execGetStatus (port : PortId) (s : State) : Result :=
  .next ((settle s).request port (.getStatus port) true anyPort fun t =>
    (t.respond port .ok (t.statusBytes port)).modPort port fun c => { c with lost := false })

/-- The effect of NEXT_EVENT (R191). -/
def State.takeEvent (s : State) (port : PortId) : State :=
  let c := s.port port
  match c.queue with
  | [] => s.respond port .notFound (u8 0 ++ flag c.lost)
  | r :: q => (s.modPort port fun c => { c with queue := q }).respond port .ok (r.bytes ++ u8 q.length ++ flag c.lost)

/-- NEXT_EVENT (R191). -/
def execNextEvent (port : PortId) (s : State) : Result :=
  serve s port (.nextEvent port) anyPort fun t => t.takeEvent port

/-- SET_ROUTING (R190). -/
def execSetRouting (port : PortId) (mask : Byte) (s : State) : Result :=
  serve s port (.setRouting port mask) anyPort fun t =>
    (t.modPort port fun c => { c with routing := mask }).respond port .ok [mask]

/-- READ_CLOCK (R16). -/
def execReadClock (port : PortId) (s : State) : Result :=
  serve s port (.readClock port) anyPort fun t => t.respond port .ok t.clockBytes

/-- A readout of an object named by number: BAD_ARG when out of range. -/
def State.readNumbered {α : Type} (s : State) (port : PortId) (x : Option α) (f : α → List Byte) : State :=
  match x with
  | some a => s.respond port .ok (f a)
  | none => s.respond port .badArg

/-- READ_PLAYER (R62, R76). -/
def execReadPlayer (port : PortId) (player : Byte) (s : State) : Result :=
  serve s port (.readPlayer port player) anyPort fun t =>
    t.readNumbered port (finId? 3 player.toNat) t.playerBytes

/-- READ_QUEUE naming START (R62); another queue byte is of no queue. -/
def execReadQueueStart (port : PortId) (queue : Byte) (s : State) : Result :=
  serve s port (.readQueueStart port queue) anyPort fun t =>
    if queue = 0#8 then t.respond port .ok t.startQueueBytes else t.respond port .badArg

/-- READ_QUEUE naming STRIKE (R104). -/
def execReadQueueStrike (port : PortId) (s : State) : Result :=
  serve s port (.readQueueStrike port) anyPort fun t => t.respond port .ok t.strikeQueueBytes

/-- READ_BELL (R104, R121). -/
def execReadBell (port : PortId) (bell : Byte) (s : State) : Result :=
  serve s port (.readBell port bell) anyPort fun t => t.readNumbered port (finId? 24 bell.toNat) t.bellBytes

/-- READ_AXIS (R144). -/
def execReadAxis (port : PortId) (axis : Byte) (s : State) : Result :=
  serve s port (.readAxis port axis) anyPort fun t => t.readNumbered port (finId? 8 axis.toNat) t.axisReadBytes

/-- READ_ENTRY of the calendar (R35); another table byte is of no table. -/
def execReadEntryCalendar (port : PortId) (table index : Byte) (s : State) : Result :=
  serve s port (.readEntryCalendar port table index) anyPort fun t =>
    t.readNumbered port (if table = 0#8 then finId? 64 index.toNat else none) t.calendarBytes

/-- READ_ENTRY of the season table (R35). -/
def execReadEntrySeason (port : PortId) (index : Byte) (s : State) : Result :=
  serve s port (.readEntrySeason port index) anyPort fun t =>
    t.readNumbered port (finId? 16 index.toNat) t.seasonReadBytes

/-- READ_ENTRY of the profile table (R125). -/
def execReadEntryProfile (port : PortId) (index : Byte) (s : State) : Result :=
  serve s port (.readEntryProfile port index) anyPort fun t =>
    t.readNumbered port (finId? 16 index.toNat) fun (k : ProfileId) => profileBytes t.axes.profiles[k]

/-- READ_ENTRY of the interlock table (R151). -/
def execReadEntryInterlock (port : PortId) (index : Byte) (s : State) : Result :=
  serve s port (.readEntryInterlock port index) anyPort fun t =>
    t.readNumbered port (finId? 16 index.toNat) t.interlockReadBytes

/-- READ_ENTRY of the directory (R170). -/
def execReadEntryDirectory (port : PortId) (programme : Byte) (s : State) : Result :=
  serve s port (.readEntryDirectory port programme) anyPort fun t =>
    t.readNumbered port (progId? programme.toNat) t.directoryBytes

/-- Offset and length of a READ_STORE lie in a page or the buffer (R169). -/
def spanOk (offset length : Nat) : Bool := offset ≤ 511 && 1 ≤ length && length ≤ 64 && offset + length ≤ 512

/-- READ_STORE of form PAGE (R169, R185): queued at the arbiter, the response PENDING and the port BUSY. -/
def execReadStorePage (port : PortId) (form : Byte) (page offset : Half) (length : Byte) (s : State) : Result :=
  serve s port (.readStorePage port form page offset length) anyPort fun t =>
    if form = 0#8 ∧ page.toNat ≤ 511 ∧ spanOk offset.toNat length.toNat then
      (t.modPort port fun c =>
        { c with state := .busy, response := { status := .pending, result := .ok, data := [] } }).modStore fun x =>
          { x with portReads := placeRead { instant := t.time.hammerTime, port := port, page := page.toNat,
                                            offset := offset.toNat, length := length.toNat } x.portReads }
    else t.respond port .badArg

/-- READ_STORE of form STAGE (R169). -/
def execReadStoreStage (port : PortId) (form : Byte) (offset : Half) (length : Byte) (s : State) : Result :=
  serve s port (.readStoreStage port form offset length) anyPort fun t =>
    if form = 1#8 ∧ spanOk offset.toNat length.toNat then t.respond port .ok (t.stageBytes offset.toNat length.toNat)
    else t.respond port .badArg

/-- READ_STORE of form MAP (R169). -/
def execReadStoreMap (port : PortId) (first : Half) (count : Byte) (s : State) : Result :=
  serve s port (.readStoreMap port first count) anyPort fun t =>
    if 8 ≤ first.toNat ∧ first.toNat ≤ 511 ∧ 1 ≤ count.toNat ∧ count.toNat ≤ 64 ∧ first.toNat + count.toNat ≤ 512 then
      t.respond port .ok (t.mapBytes first.toNat count.toNat)
    else t.respond port .badArg

/-- READ_COUNTERS (R193). -/
def execReadCounters (port : PortId) (group : Byte) (s : State) : Result :=
  serve s port (.readCounters port group) anyPort fun t => t.readNumbered port (t.counterBytes group.toNat) id

end Sys2Proof.Machine
end

