-- ==== Sys2Proof/Machine/ServiceRequests.lean ====
section
/-! DEFINITION. The meanings of the technician's requests: modes, freeze, service motion, bells, axes, interlocks, setup and
part reset. -/

namespace Sys2Proof.Machine

/-- ENTER_MANUAL (R155). -/
def execEnterManual (port : PortId) (s : State) : Result :=
  serve s port (.enterManual port) serviceOnly fun t =>
    match t.stage.mode with
    | .auto => (t.changeMode .manual .enterManual).respond port .ok
    | .manual => t.respond port .ok
    | .halted => t.respond port .mode

/-- LEAVE_MANUAL (R138, R155). DESIGN CHOICE (unsafe, log 23): MODE_CHANGED stands behind the reports of the service motion
that ends. -/
def execLeaveManual (port : PortId) (s : State) : Result :=
  serve s port (.leaveManual port) serviceOnly fun t =>
    match t.stage.mode with
    | .manual => ((t.endServiceMotion).changeMode .auto .leaveManual).respond port .ok
    | .auto => t.respond port .ok
    | .halted => t.respond port .mode

/-- FREEZE (R156). -/
def execFreeze (port : PortId) (s : State) : Result :=
  serve s port (.freeze port) serviceOnly fun t =>
    if t.stage.mode = .halted then t.respond port .mode
    else if t.time.frozen then t.respond port .ok
    else
      (((t.setFrozen).report .freezeStarted none (some t.store.setup.freezeLimit)).countStage
        fun c => { c with freezes := sat32 c.freezes }).respond port .ok

/-- THAW (R156). -/
def execThaw (port : PortId) (s : State) : Result :=
  serve s port (.thaw port) serviceOnly fun t => (if t.time.frozen then t.endFreeze false else t).respond port .ok

/-- The axis a JOG moves and its profile, with the form: ABSOLUTE 0 (`true`), RELATIVE 1 (R139). -/
def jogArgs? (axis form profile : Byte) : Option (AxisId × Bool × ProfileId) :=
  match finId? 8 axis.toNat, pickOf true false form, finId? 16 profile.toNat with
  | some a, some f, some r => some (a, f, r)
  | _, _, _ => none

/-- UNHOMED, FAULTED or DISABLED. -/
def AxisState.unavailable : AxisState → Bool
  | .unhomed | .faulted | .disabled => true
  | _ => false

/-- The target a JOG asks for (R139). -/
def Axis.jogTarget (x : Axis) (absolute : Bool) (n : Int) : Int :=
  if absolute then n else n + (if x.state = .moving then x.target else x.position)

/-- JOG (R139): the response gives the target after clamping and the clamped flag. -/
def execJog (port : PortId) (axis form : Byte) (target : Half) (profile : Byte) (s : State) : Result :=
  serve s port (.jog port axis form target profile) serviceOnly fun t =>
    match jogArgs? axis form profile with
    | none => t.respond port .badArg
    | some (a, absolute, r) =>
      let x := t.axis a
      if t.stage.mode ≠ .manual then t.respond port .mode
      else if x.claim.isSome then t.respond port .claimed
      else if x.state.unavailable then t.respond port .unavailable
      else if x.state = .homing ∨ x.slot.isSome then t.respond port .busy
      else
        let want := x.jogTarget absolute target.toInt
        let got := max x.config.softLow (min want x.config.softHigh)
        (t.placeMove a want r t.time.stageTime .service).respond port .accepted (i16 got ++ flag (got != want))

/-- STOP_AXIS (R140). -/
def execStopAxis (port : PortId) (axis kind : Byte) (s : State) : Result :=
  serve s port (.stopAxis port axis kind) serviceOnly fun t =>
    match finId? 8 axis.toNat, stopKindOf kind with
    | some a, some k =>
      let u := t.discardMove a .stopAxis
      (match (u.axis a).state with
        | .moving | .stopping => u.stopMotion a k .stopAxis
        | .homing => u.endHoming a .stopAxis
        | _ => u).respond port .ok
    | _, _ => t.respond port .badArg

/-- HOME_AXIS (R141). -/
def execHomeAxis (port : PortId) (axis : Byte) (s : State) : Result :=
  serve s port (.homeAxis port axis) serviceOnly fun t =>
    match finId? 8 axis.toNat with
    | none => t.respond port .badArg
    | some a =>
      let x := t.axis a
      if t.stage.mode ≠ .manual then t.respond port .mode
      else if x.claim.isSome then t.respond port .claimed
      else if x.state = .faulted ∨ x.state = .disabled then t.respond port .unavailable
      else if x.inMotion ∨ x.slot.isSome then t.respond port .busy
      else
        match t.homingObstacle a with
        | some k => t.respond port .unavailable (u8 k.val)
        | none => (t.beginHoming a .homeAxis).respond port .accepted

/-- TEST_STRIKE (R99): its sound time is now plus its lead, so it is due at once. -/
def execTestStrike (port : PortId) (bell velocity : Byte) (s : State) : Result :=
  serve s port (.testStrike port bell velocity) serviceOnly fun t =>
    match finId? 24 bell.toNat with
    | none => t.respond port .badArg
    | some b =>
      let v := velocity.toNat
      if v < 1 ∨ 127 < v then t.respond port .badArg
      else if t.stage.mode ≠ .manual then t.respond port .mode
      else if (t.bell b).state ≠ .inService then (t.refuseUnavailable).respond port .unavailable
      else
        let sound := t.time.stageTime + ((t.strikeFigures b v).2 + (t.bell b).flight)
        match t.offerAt b v sound none none with
        | (u, .placed e) => u.respond port .accepted (u8 e.velocity ++ u16 e.drive ++ u48 e.launch ++ u48 e.sound)
        | (u, .full) => u.respond port .full
        | (u, _) => u.respond port .busy

/-- WRITE_BELL (R118). -/
def execWriteBell (port : PortId) (bell : Byte) (config : BellPayload) (s : State) : Result :=
  serve s port (.writeBell port bell config) serviceOnly fun t =>
    match finId? 24 bell.toNat, bellStateOf config.state with
    | some b, some state =>
      let x := BellPayload.apply config state (t.bell b)
      if !x.inRange then t.respond port .badArg
      else if t.strikes.queue.any (fun e => e.bell == b) || !t.atRest b then t.respond port .busy
      else (t.modBell b fun _ => x).respond port .ok
    | _, _ => t.respond port .badArg

/-- WRITE_AXIS (R142); the outputs go to their resting levels, the step output inactive and the direction output for
increasing position (log 21). -/
def execWriteAxis (port : PortId) (axis : Byte) (config : AxisPayload) (s : State) : Result :=
  serve s port (.writeAxis port axis config) serviceOnly fun t =>
    match finId? 8 axis.toNat, flagOf config.enabled with
    | some a, some enabled =>
      let c := AxisPayload.config config enabled
      let x := t.axis a
      if !c.wellFormed then t.respond port .badArg
      else if x.claim.isSome then t.respond port .claimed
      else if x.inMotion ∨ x.slot.isSome then t.respond port .busy
      else
        let u := t.modAxis a fun x =>
          { x with config := c, positionValid := false, passage := none, fault := none, burst := none, slipDue := false,
                   pulse := false, direction := .positive, state := if enabled then .unhomed else .disabled }
        ((u.oweIfFree a).oweReeval).respond port .ok
    | _, _ => t.respond port .badArg

/-- An axis is MOVING, STOPPING or HOMING, or holds a held move (R151). -/
def State.stageMoves (s : State) : Bool :=
  allAxes.any fun a => (s.axis a).inMotion || (match (s.axis a).slot with | some m => m.held.isSome | none => false)

/-- WRITE_INTERLOCK (R151). -/
def execWriteInterlock (port : PortId) (index : Byte) (entry : InterlockPayload) (s : State) : Result :=
  serve s port (.writeInterlock port index entry) serviceOnly fun t =>
    match finId? 16 index.toNat, flagOf entry.enabled with
    | some k, some enabled =>
      let e := InterlockPayload.entry entry enabled
      if !e.wellFormed then t.respond port .badArg
      else if t.stage.mode ≠ .manual then t.respond port .mode
      else if t.stageMoves then t.respond port .busy
      else (t.modAxes fun x => { x with interlocks := x.interlocks.set k e }).respond port .ok
    | _, _ => t.respond port .badArg

/-- CLEAR_FAULT for a bell (R119); another target kind is of no target. -/
def execClearFaultBell (port : PortId) (kind number : Byte) (s : State) : Result :=
  serve s port (.clearFaultBell port kind number) serviceOnly fun t =>
    match (if kind = 0#8 then finId? 24 number.toNat else none) with
    | none => t.respond port .badArg
    | some b =>
      (if (t.bell b).state = .faulted then t.modBell b fun x => { x with state := .inService, misses := 0 }
       else t).respond port .ok

/-- CLEAR_FAULT for an axis (R142). -/
def execClearFaultAxis (port : PortId) (number : Byte) (s : State) : Result :=
  serve s port (.clearFaultAxis port number) serviceOnly fun t =>
    match finId? 8 number.toNat with
    | none => t.respond port .badArg
    | some a =>
      (if (t.axis a).state = .faulted then (t.modAxis a fun x => { x with state := .unhomed }).oweIfFree a
       else t).oweReeval.respond port .ok

/-- WRITE_SETUP (R178). -/
def execWriteSetup (port : PortId) (setup : SetupPayload) (s : State) : Result :=
  serve s port (.writeSetup port setup) serviceOnly fun t =>
    if !SetupPayload.inRange setup then t.respond port .badArg
    else if t.stage.mode ≠ .manual then t.respond port .mode
    else if allPlayers.any (fun p => (t.player p).state != .idle) || t.store.op.isSome then t.respond port .busy
    else (t.beginOp port (.writeSetup (SetupPayload.image setup)) .erase).respond port .accepted

/-- RESET_PART (R194): the main reset begins in the same event, and the response is not kept. -/
def execResetPart (port : PortId) (s : State) : Result :=
  serve s port (.resetPart port) serviceOnly fun t => t.mainReset

end Sys2Proof.Machine
end

