-- ==== Sys2Proof/Machine/AxisEvents.lean ====
section
/-! DEFINITION. The meanings of the events of the axis controller. -/

namespace Sys2Proof.Machine

/-- The pending move of an axis whose due time is reached (R127). -/
def State.dueMove? (s : State) (a : AxisId) : Option PendingMove :=
  match (s.axis a).slot with
  | some m => if s.running && decide (m.due ≤ s.time.stageTime) then some m else none
  | none => none

/-- MOVE_DUE (R127): the pending move is tested for readiness, and checked if ready. -/
def execMoveDue (axis : AxisId) (s : State) : Result :=
  event s (fun t => (t.dueMove? axis).isSome) fun t => t.testMove axis

/-- The pending move of an axis that is ready and passes the interlock check (R127, R147). -/
def State.startable? (s : State) (a : AxisId) : Option PendingMove :=
  match (s.axis a).slot with
  | some m => if s.running && s.ready a m && (s.obstacle a m.target).isNone then some m else none
  | none => none

/-- MOVE_START (R127). -/
def execMoveStart (axis : AxisId) (s : State) : Result :=
  event s (fun t => (t.startable? axis).isSome) fun t =>
    match t.startable? axis with
    | some m => t.startMove axis m
    | none => t

/-- The held move of an axis that has reached its hold timeout (R149). -/
def State.holdOver? (s : State) (a : AxisId) : Option PendingMove :=
  match (s.axis a).slot with
  | some m =>
    match m.held with
    | some h =>
      if s.running && decide (h + s.store.setup.holdTimeout * 100000 ≤ s.time.stageTime) then some m else none
    | none => none
  | none => none

/-- INTERLOCK_TIMEOUT (R149). -/
def execInterlockTimeout (axis : AxisId) (s : State) : Result :=
  event s (fun t => (t.holdOver? axis).isSome) fun t =>
    match t.holdOver? axis with
    | some m => t.abandonMove axis m
    | none => t

/-- SWITCH_EDGE (R124, R132, R135): the home-switch input is sampled at a level. -/
def execSwitchEdge (axis : AxisId) (level : Level) (s : State) : Result :=
  event s (fun _ => true) fun t => t.sampleSwitch axis level

/-- The homing of an axis that has used up its search travel; its last pulse is over (R133). -/
def State.searchOver? (s : State) (a : AxisId) : Option Homing :=
  let x := s.axis a
  match x.state, x.homing with
  | .homing, some h => if s.running && decide (x.config.searchTravel ≤ h.travel) && !x.pulse then some h else none
  | _, _ => none

/-- HOME_NOT_FOUND (R133). -/
def execHomeNotFound (axis : AxisId) (s : State) : Result :=
  event s (fun t => (t.searchOver? axis).isSome) fun t =>
    match t.searchOver? axis with
    | some h => t.failHoming axis h.travel
    | none => t

end Sys2Proof.Machine
end

