-- ==== Sys2Proof/Machine/PortEvents.lean ====
section
/-! DEFINITION. The meanings of the events of the ports, the supplies and the HALT and RESET inputs. -/

namespace Sys2Proof.Machine

/-- The effect of a malformed write on a port (R185, check 1). -/
def State.refuseFrame (s : State) (p : PortId) (frame : List Byte) : State :=
  ((s.takeRequest p (received frame)).modPort p fun c =>
    { c with counters := { c.counters with badFrames := sat32 c.counters.badFrames } }).respond p .badFrame

/-- BAD_FRAME (R185, R186): bytes that spell no request; an overrun while the port is BUSY. -/
def execBadFrame (port : PortId) (frame : List Byte) (s : State) : Result :=
  event s (fun t => t.listens port && !frame.isEmpty && (requestOfFrame? port frame).isNone) fun t =>
    if (t.port port).state = .busy then t.overrunAt port else t.refuseFrame port frame

/-- OVERRUN (R186): a write with data while the port is BUSY. -/
def execOverrun (port : PortId) (s : State) : Result :=
  event s (fun t => t.listens port && (t.port port).state == .busy) fun t => t.overrunAt port

/-- A read transaction is answered with the response slot (R187). -/
def Port.answerNow (c : Port) : Port := { c with lastRead := c.response.bytes }

/-- The byte at a place of the last read transaction: 0xFF beyond the end of the data (R187). -/
def Port.readByte (c : Port) (k : Nat) : Byte := c.lastRead.getD k 0xFF#8

/-- A read transaction at a port (R187, R188): held while the port is BUSY with clock-hold on, else answered at once. A
hold under way lets no further read arrive. -/
def Port.readArrives (c : Port) : Port :=
  if c.state = .busy ∧ c.clockHold then { c with hold := some (c.hold.getD 0) } else c.answerNow

/-- CLOCK_HOLD: a read transaction arrives (R187, R188). -/
def execClockHold (port : PortId) (s : State) : Result :=
  event s (fun t => t.listens port) fun t => t.modPort port Port.readArrives

/-- The port's hold has lasted 25 ms (R188). -/
def Port.holdOver (c : Port) : Bool :=
  match c.hold with
  | some k => Config.holdTicks ≤ k
  | none => false

/-- The clock is released, and the read returns what the response slot holds (R188). -/
def Port.release (c : Port) : Port := { c.answerNow with hold := none }

/-- CLOCK_HOLD_LIMIT (R188). -/
def execClockHoldLimit (port : PortId) (s : State) : Result :=
  event s (fun t => t.listens port && (t.port port).holdOver) fun t => t.modPort port Port.release

/-- The pins after the cause of a main reset (R5). -/
def Pins.resetBy (p : Pins) : ResetCause → Pins
  | .powerReturn => { p with mainPower := true }
  | .resetInput => { p with resetIn := true }

/-- MAIN_RESET by return of main power or by the RESET input (R5, R19). -/
def execMainReset (cause : ResetCause) (s : State) : Result :=
  event s (fun _ => true) fun t => { t with pins := t.pins.resetBy cause }.mainReset

/-- BACKUP_RESET: first power, or the return of power after both supplies failed (R18). -/
def execBackupReset (s : State) : Result :=
  event s (fun _ => true) fun t => { t with pins := { t.pins with mainPower := true } }.backupReset

/-- STABILISATION_END (R5). -/
def execStabilisationEnd (s : State) : Result := event s State.stabilised State.endStabilisation

/-- The HALT input asserted calls for entry to HALTED (R152). -/
def State.haltDue (s : State) : Bool := s.running && s.pins.haltIn && s.stage.mode != .halted

/-- HALT_INPUT: a sample of the HALT input (R152). Before the ticks begin only the level is kept. -/
def execHaltInput (asserted : Bool) (s : State) : Result :=
  event s (fun _ => true) fun t =>
    let u := { t with pins := { t.pins with haltIn := asserted } }
    if u.haltDue then u.enterHalted .haltInput else u

/-- MAIN_POWER_LOSS (R17): the main domain stops and loses its state, and nothing drives an output; the backup domain runs
on. -/
def execMainPowerLoss (s : State) : Result :=
  event s (fun _ => true) fun t => { t with pins := { t.pins with mainPower := false } }.mainReset

/-- RESET_INPUT_DEASSERTED (R5): from now the stabilisation interval runs. -/
def execResetInputDeasserted (s : State) : Result :=
  event s (fun _ => true) fun t =>
    let u := { t with pins := { t.pins with resetIn := false } }
    if t.pins.resetIn then u.modTime fun x => { x with stabElapsed := 0 } else u

end Sys2Proof.Machine
end

