-- ==== Sys2Proof/Machine/ShowEvents.lean ====
section
/-! DEFINITION. The meanings of the events of the timebase and of the show engine: boundaries, ticks, expiries, the
admission attempt, waits and release. A row that is a follow-up of another event is run under its own condition (log 1). -/

namespace Sys2Proof.Machine

/-- MINUTE_BOUNDARY (R6, R8). -/
def execMinuteBoundary (s : State) : Result :=
  event s (fun t => 0 < t.backup.boundaryAhead && !t.backup.rollsOver) State.passBoundary

/-- SLEW_PERIOD_END (R12). -/
def execSlewPeriodEnd (s : State) : Result :=
  event s (fun t => t.backup.slewPeriodOver) fun t => t.modBackup Backup.endSlewPeriod

/-- CENTURY_ROLLOVER (R9). -/
def execCenturyRollover (s : State) : Result := event s (fun t => t.backup.rollsOver) State.rollOver

/-- The show tick of the three players (R47 to R49, R60). DESIGN CHOICE (unsafe, log 23): each takes the whole tick in turn,
in ascending player number. -/
def State.showTick (s : State) : State :=
  allPlayers.foldl State.playerTick (s.modTime fun t => { t with showTickDue := false })

/-- A show tick is to be taken: stage time has reached a whole multiple of 100, and FROZEN is clear (R3, R48, R76). DESIGN
CHOICE (unsafe, log 31): a show tick that is due as a FREEZE is taken waits for the end of the freeze. -/
def State.showTickOwed (s : State) : Bool := s.running && s.time.showTickDue && !s.time.frozen

/-- SHOW_TICK (R3, R47 to R49). -/
def execShowTick (s : State) : Result := event s State.showTickOwed State.showTick

/-- The motion tick: the frozen duration, the supply sample, the axes (R2, R117, R128). DESIGN CHOICE (unsafe, log 23): the
sample comes first, and the axes follow in ascending number. -/
def State.motionTick (s : State) (rail : Nat) : State :=
  let s1 := { s with pins := { s.pins with rail := rail } }.modTime fun t =>
    { t with motionTickDue := false, frozenMs := if t.frozen then t.frozenMs + 1 else t.frozenMs }
  allAxes.foldl State.motionAxis (s1.sampleSupply rail)

/-- MOTION_TICK (R3, R117, R128). -/
def execMotionTick (rail : BitVec 9) (s : State) : Result :=
  event s (fun t => t.running && t.time.motionTickDue) fun t => t.motionTick rail.toNat

/-- The frozen duration has reached the freeze limit (R157). -/
def State.freezeOver (s : State) : Bool := s.running && s.time.frozen && decide (s.freezeLimitMs ≤ s.time.frozenMs)

/-- The freeze ends by itself (R157). -/
def State.expireFreeze (s : State) : State :=
  ((s.clearFrozen).report .freezeExpired none (some s.time.frozenMs)).countStage
    fun c => { c with freezeExpiries := sat32 c.freezeExpiries }

/-- FREEZE_EXPIRED (R157). -/
def execFreezeExpired (s : State) : Result := event s State.freezeOver State.expireFreeze

/-- The first queued start, in queue order, whose expiry stage time has passed (R38). DESIGN CHOICE (unsafe, log 23): entries
that expire at one stage time go one after another in queue order, each with the attempt that follows it. -/
def State.expired? (s : State) : Option StartEntry := s.shows.queue.find? fun e => e.expiry < s.time.stageTime

/-- START_EXPIRED (R38). -/
def execStartExpired (s : State) : Result :=
  event s (fun t => t.running && t.expired?.isSome) fun t =>
    match t.expired? with
    | some e => t.expireStart e
    | none => t

/-- ADMISSION_ATTEMPT (R40). -/
def execAdmissionAttempt (s : State) : Result := .next (if s.running && s.todo.attempt then s.attemptStep else s)

/-- SLOT_WAIT_END (R51). -/
def execSlotWaitEnd (player : PlayerId) (s : State) : Result := .next (if s.running then s.slotWaitStep player else s)

/-- AWAIT_END (R52). -/
def execAwaitEnd (player : PlayerId) (s : State) : Result := .next (if s.running then s.awaitStep player else s)

/-- WAIT_AXIS_END (R53). -/
def execWaitAxisEnd (player : PlayerId) (s : State) : Result := .next (if s.running then s.waitAxisStep player else s)

/-- WAIT_TIMEOUT (R53). -/
def execWaitTimeout (player : PlayerId) (s : State) : Result :=
  event s (fun t => t.running && t.waitDeadline player) fun t => t.timeOutWait player

/-- PLAYER_RELEASE (R59). -/
def execPlayerRelease (player : PlayerId) (s : State) : Result := .next (if s.running then s.releaseStep player else s)

end Sys2Proof.Machine
end

