-- ==== Sys2Proof/Machine/StoreEvents.lean ====
section
/-! DEFINITION. The meanings of the events of the programme store and its read path. -/

namespace Sys2Proof.Machine

/-- STORE_WAIT_END (R67). -/
def execStoreWaitEnd (player : PlayerId) (s : State) : Result := .next (if s.running then s.storeWaitStep player else s)

/-- READ_GRANT (R164). -/
def execReadGrant (s : State) : Result := .next (if s.running then s.readGrantStep else s)

/-- The read in flight whose 0.25 ms are over (R164). -/
def State.readOver? (s : State) : Option InFlight :=
  match s.store.path with
  | some f => if s.running && f.left == 0 then some f else none
  | none => none

/-- READ_COMPLETE (R164). -/
def execReadComplete (s : State) : Result :=
  event s (fun t => t.readOver?.isSome) fun t =>
    match t.readOver? with
    | some f => t.completeRead f
    | none => t

/-- The erase has run its 8 ms (R163). -/
def State.eraseOver (s : State) : Bool := s.running && s.store.array == .erasing 0

/-- ERASE_PHASE_END (R163). -/
def execErasePhaseEnd (s : State) : Result := event s State.eraseOver State.eraseDone

/-- The program has run its 3 ms (R163). -/
def State.programOver (s : State) : Bool := s.running && s.store.array == .programming 0

/-- PROGRAM_PHASE_END (R163). -/
def execProgramPhaseEnd (s : State) : Result := event s State.programOver State.programDone

/-- The page whose blank test is over (R180). -/
def State.testOver? (s : State) : Option Nat :=
  match s.store.load with
  | .testing p => if s.running && s.store.blankLeft == some 0 then some p else none
  | _ => none

/-- BLANK_TEST_COMPLETE (R180). -/
def execBlankTestComplete (s : State) : Result :=
  event s (fun t => t.testOver?.isSome) fun t =>
    match t.testOver? with
    | some p => t.blankTestDone p
    | none => t

end Sys2Proof.Machine
end

