-- ==== Sys2Proof/Machine/StrikeEvents.lean ====
section
/-! DEFINITION. The meanings of the events of the strike scheduler and the hammer drive. -/

namespace Sys2Proof.Machine

/-- An ACTIVE roll slot whose next issue falls now (R97). -/
def State.rollDue? (s : State) (r : RollId) : Option Roll :=
  match s.roll r with
  | some x => if s.running && x.issueDue s.time.stageTime then some x else none
  | none => none

/-- ROLL_ISSUE (R97): issues behind time follow in the same event. -/
def execRollIssue (slot : RollId) (s : State) : Result :=
  event s (fun t => (t.rollDue? slot).isSome) fun t =>
    match t.rollDue? slot with
    | some x => issueRoll slot (x.remaining + 1) t
    | none => t

/-- The first due strike in strike-queue order (R91). -/
def State.dueStrike? (s : State) : Option StrikeEntry := s.strikes.queue.find? s.strikeIsDue

/-- STRIKE_DUE (R91, R92): a due strike is removed as muted under mute; else it is a candidate from now on, which is a
condition of the state (`State.candidate`) and changes no field. DESIGN CHOICE (unsafe, log 34): a strike deferred to its
latest launch + 1 (R89), due and late at one stage time, is removed as muted where STRIKE_DUE is taken under mute at it. -/
def execStrikeDue (s : State) : Result :=
  event s (fun t => t.running && t.dueStrike?.isSome) fun t =>
    match t.dueStrike? with
    | some e => if t.backup.mute then t.removeMuted e else t
    | none => t

/-- The first strike, in strike-queue order, whose latest launch stage time has passed (R93). -/
def State.lateStrike? (s : State) : Option StrikeEntry := s.strikes.queue.find? fun e => e.latest < s.time.stageTime

/-- LATE_REMOVAL (R93). -/
def execLateRemoval (s : State) : Result :=
  event s (fun t => t.running && t.lateStrike?.isSome) fun t =>
    match t.lateStrike? with
    | some e => t.removeLate e
    | none => t

/-- SLOT_GRANT (R94, R108, R109). -/
def execSlotGrant (s : State) : Result := .next (if s.running then s.grantStep else s)

/-- The drive pulse of a bell that is over: its start, drive time and slot (R110). -/
def State.driveOver? (s : State) (b : BellId) : Option (Nat × Nat × Nat) :=
  match (s.hammerOf b).state with
  | .driving start drive slot =>
    if s.running && decide (start + drive ≤ s.time.hammerTime) then some (start, drive, slot) else none
  | _ => none

/-- DRIVE_END (R110). -/
def execDriveEnd (bell : BellId) (s : State) : Result :=
  event s (fun t => (t.driveOver? bell).isSome) fun t =>
    match t.driveOver? bell with
    | some (start, drive, slot) => t.endDrive bell start drive slot
    | none => t

/-- CONTACT_CAPTURE (R111, R112): the contact input is sampled at a level. -/
def execContactCapture (bell : BellId) (level : Level) (s : State) : Result :=
  event s (fun _ => true) fun t => t.sampleContact bell level

/-- The contact window of a bell that has closed: the pulse's start and drive time (R113). -/
def State.windowOver? (s : State) (b : BellId) : Option (Nat × Nat) :=
  match (s.hammerOf b).state with
  | .flight start drive =>
    if s.running && decide (start + drive + Config.windowClose ≤ s.time.hammerTime) then some (start, drive) else none
  | _ => none

/-- MISS (R113, R114). -/
def execMiss (bell : BellId) (s : State) : Result :=
  event s (fun t => (t.windowOver? bell).isSome) fun t =>
    match t.windowOver? bell with
    | some (start, drive) => t.missContact bell start drive
    | none => t

/-- The hammer has reached its rest instant (R115). -/
def State.restDue (s : State) (b : BellId) : Bool :=
  match (s.hammerOf b).state with
  | .recovering _ _ rest => s.running && decide (rest ≤ s.time.hammerTime)
  | _ => false

/-- HAMMER_REST (R115). -/
def execHammerRest (bell : BellId) (s : State) : Result :=
  event s (fun t => t.restDue bell) fun t => t.restHammer bell

end Sys2Proof.Machine
end

