-- ==== Sys2Proof/Machine/Tick.lean ====
section
/-! DEFINITION. What the block does on its own when no command waits (log 1): the events that are due, one after another,
and 10 µs of real time once none is (R3, R5, R12). -/

namespace Sys2Proof.Machine

/-! ### Due events -/

/-- The row of a follow-up. -/
def Follow.row : Follow → Instr
  | .slotWaitEnd p => .slotWaitEnd p
  | .awaitEnd p => .awaitEnd p
  | .waitAxisEnd p => .waitAxisEnd p
  | .slotGrant => .slotGrant
  | .attempt => .admissionAttempt
  | .release p => .playerRelease p
  | .storeWaitEnd p => .storeWaitEnd p
  | .readGrant => .readGrant

/-- A row when its condition holds. -/
def when (c : Bool) (i : Instr) : Option Instr := if c then some i else none

/-- The row of the first of some objects that meets a condition. -/
def firstOf {α : Type} (xs : List α) (c : α → Bool) (i : α → Instr) : Option Instr := (xs.find? c).map i

/-- A pending move is to be tested: ready, and not held yet (R127, R148). -/
def State.moveTestDue (s : State) (a : AxisId) : Bool :=
  match s.dueMove? a with
  | some m => s.ready a m && m.held.isNone
  | none => false

/-- The due events of the two clocks and the HALT input, then of the store, the ports and the hammers, then of the ticks,
then of stage time. -/
def dueEvents (s : State) : List (Option Instr) :=
  [ (nextFollow s).map Follow.row,
    when s.stabilised .stabilisationEnd,
    when s.backup.slewPeriodOver .slewPeriodEnd,
    when s.backup.rollsOver .centuryRollover,
    when (0 < s.backup.boundaryAhead) .minuteBoundary,
    when s.haltDue (.haltInput true),
    when s.readOver?.isSome .readComplete,
    when s.eraseOver .erasePhaseEnd,
    when s.programOver .programPhaseEnd,
    when s.testOver?.isSome .blankTestComplete,
    firstOf allPorts (fun p => s.listens p && (s.port p).holdOver) .clockHoldLimit,
    firstOf allBells (fun b => (s.driveOver? b).isSome) .driveEnd,
    firstOf allBells (fun b => (s.windowOver? b).isSome) .miss,
    firstOf allBells s.restDue .hammerRest,
    firstOf allAxes (fun a => (s.searchOver? a).isSome) .homeNotFound,
    when s.showTickOwed .showTick,
    when (s.running && s.time.motionTickDue) (.motionTick (BitVec.ofNat 9 s.pins.rail)),
    when s.freezeOver .freezeExpired,
    when (s.running && s.expired?.isSome) .startExpired,
    firstOf allPlayers (fun p => s.running && s.waitDeadline p) .waitTimeout,
    firstOf allAxes (fun a => (s.holdOver? a).isSome) .interlockTimeout,
    firstOf allAxes s.moveTestDue .moveDue,
    when (s.running && s.lateStrike?.isSome) .lateRemoval,
    when (s.running && s.backup.mute && s.dueStrike?.isSome) .strikeDue,
    firstOf allRolls (fun r => (s.rollDue? r).isSome) .rollIssue ]

/-- The event that is taken next, if one is due; events of one instant are taken in the order of the list (log 1). -/
def nextDue (s : State) : Option Instr := (dueEvents s).findSome? id

/-! ### The tick -/

/-- Hammer time one tick on; free after 2^48 − 1 (log 8). -/
def hammerAfter (h : Nat) : Nat := if h < Config.maxStage then h + 1 else Config.hammerTimeAfterLast.toNat

/-- One hammer tick of the timebase (R1, R3): a stage tick too unless FROZEN, with the show and motion ticks it brings. -/
def Time.tick (t : Time) : Time :=
  let h := hammerAfter t.hammerTime
  let phase := if t.motionPhase + 1 < 100 then t.motionPhase + 1 else 0
  let t1 := { t with hammerTime := h, motionPhase := phase, motionTickDue := phase == 0 }
  if t.frozen || Config.maxStage ≤ t.stageTime then t1
  else { t1 with stageTime := t.stageTime + 1
                 showTickDue := (t.stageTime + 1) % 100 == 0 }

/-- An array phase runs on; a suspended erase keeps its time (R163, R165). -/
def ArrayActivity.tick : ArrayActivity → ArrayActivity
  | .erasing n => .erasing (n - 1)
  | .programming n => .programming (n - 1)
  | .suspended n => .suspended n
  | .idle => .idle

/-- The store's timers run on. -/
def Store.tick (t : Store) : Store :=
  { t with array := t.array.tick, path := t.path.map fun (f : InFlight) => { f with left := f.left - 1 },
           blankLeft := t.blankLeft.map fun n => n - 1 }

/-- A port's clock hold runs on (R188). -/
def Port.tick (c : Port) : Port := { c with hold := c.hold.map fun n => n + 1 }

/-- 10 µs of the main domain. DESIGN CHOICE (unsafe, log 23): the axes take the hammer tick in ascending number, and where
several unclaimed ones come to rest on it, one admission attempt (R40) follows them all. -/
def State.mainTick (s : State) : State :=
  let s1 := (s.modTime Time.tick).modStore Store.tick
  (allAxes.foldl State.axisHammerTick (allPorts.foldl (fun s p => s.modPort p Port.tick) s1)).close

/-- The stabilisation interval runs while main power is good and RESET is released (R5). -/
def State.stabilising (s : State) : Bool := s.time.osc == .stabilising && s.pins.mainPower && !s.pins.resetIn

/-- 10 µs of real time: the wall clock in every state, the stabilisation interval, or the main domain. -/
def tick (s : State) : State :=
  let s1 := s.modBackup Backup.clockTick
  if s1.running then s1.mainTick
  else if s1.stabilising then s1.modTime fun t => { t with stabElapsed := t.stabElapsed + 1 }
  else s1

end Sys2Proof.Machine
end

