-- ==== Sys2Proof/Machine/VenueRequests.lean ====
section
/-! DEFINITION. The meanings of the venue's requests, START_SHOW and STOP_SHOW from the service port among them. -/

namespace Sys2Proof.Machine

/-- SET_CLOCK (R11 to R14). -/
def execSetClock (port : PortId) (time : WallPayload) (s : State) : Result :=
  serve s port (.setClock port time) venueOnly fun t =>
    match requestedWall? time with
    | none => t.respond port .badArg
    | some target =>
      let d : Int := (target : Int) - t.backup.wallMs
      let slew := t.backup.validity == .valid && decide (d.natAbs ≤ Config.slewLimit.toNat)
      (if slew then t.slewClock d else t.stepClock target d).respond port .ok
        (u8 (boolCode (!slew)) ++ twos 4 (clampReport d))

/-- SET_RESTRAINT (R158). -/
def execSetRestraint (port : PortId) (ceiling mute : Byte) (s : State) : Result :=
  serve s port (.setRestraint port ceiling mute) venueOnly fun t =>
    match flagOf mute with
    | none => t.respond port .badArg
    | some m =>
      if ceiling.toNat = 0 then t.respond port .badArg
      else
        let c := min ceiling.toNat 127
        (t.setRestraints c m).respond port .ok (u8 c ++ flag m)

/-- HALT (R154). -/
def execHalt (port : PortId) (s : State) : Result :=
  serve s port (.halt port) venueOnly fun t =>
    (if t.stage.mode = .halted then t else t.enterHalted .haltRequest).respond port .ok

/-- RESUME (R154). -/
def execResume (port : PortId) (s : State) : Result :=
  serve s port (.resume port) venueOnly fun t =>
    if t.stage.mode = .halted ∧ ¬ t.pins.haltIn then (t.changeMode .auto .resume).respond port .ok
    else t.respond port .mode

/-- The priority of a START_SHOW: 0 to 7, or DEFAULT (`some none`), coded 0xFF (R39, R195). -/
def startPriority? (b : Byte) : Option (Option Nat) :=
  if b = 0xFF#8 then some none else if b.toNat ≤ 7 then some (some b.toNat) else none

/-- The mode lets a start come from the port (R39). -/
def State.startMode (s : State) (port : PortId) : Bool :=
  match port with
  | .service => s.stage.mode == .manual
  | _ => s.stage.mode == .auto

/-- The source of a start from a port (R36). -/
def startSource : PortId → Source
  | .service => .service
  | _ => .venue

/-- START_SHOW (R37, R39): the response gives the entries queued just after the arrival. -/
def execStartShow (port : PortId) (programme priority : Byte) (s : State) : Result :=
  serve s port (.startShow port programme priority) venueOrService fun t =>
    match progId? programme.toNat, startPriority? priority with
    | some g, some prio =>
      if !t.startMode port then t.respond port .mode
      else
        match t.live? g with
        | none => t.respond port .notFound
        | some v =>
          match t.arriveStart g v (prio.getD v.priority) (startSource port) none with
          | some u => u.respond port .accepted (u8 u.shows.queue.length)
          | none => (t.refuseStart).respond port .full
    | _, _ => t.respond port .badArg

/-- STOP_SHOW (R58). -/
def execStopShow (port : PortId) (player : Byte) (s : State) : Result :=
  serve s port (.stopShow port player) venueOrService fun t =>
    match finId? 3 player.toNat with
    | none => t.respond port .badArg
    | some p =>
      if (t.player p).state = .idle then t.respond port .notFound
      else (t.abortPlayer p .stopped).respond port .ok

end Sys2Proof.Machine
end

