-- ==== Sys2Proof/Machine/Dispatch.lean ====
section
/-! DEFINITION. One arm per command: the meaning of each row of the opcode table. -/

namespace Sys2Proof.Machine

def exec (i : Instr) (s : State) : Host.Outcome State Fault Refusal :=
  match i with
  | .getStatus port => Sys2Proof.Machine.execGetStatus port s
  | .nextEvent port => Sys2Proof.Machine.execNextEvent port s
  | .setRouting port mask => Sys2Proof.Machine.execSetRouting port mask s
  | .readClock port => Sys2Proof.Machine.execReadClock port s
  | .readPlayer port player => Sys2Proof.Machine.execReadPlayer port player s
  | .readQueueStart port queue => Sys2Proof.Machine.execReadQueueStart port queue s
  | .readQueueStrike port => Sys2Proof.Machine.execReadQueueStrike port s
  | .readBell port bell => Sys2Proof.Machine.execReadBell port bell s
  | .readAxis port axis => Sys2Proof.Machine.execReadAxis port axis s
  | .readEntryCalendar port table index => Sys2Proof.Machine.execReadEntryCalendar port table index s
  | .readEntrySeason port index => Sys2Proof.Machine.execReadEntrySeason port index s
  | .readEntryProfile port index => Sys2Proof.Machine.execReadEntryProfile port index s
  | .readEntryInterlock port index => Sys2Proof.Machine.execReadEntryInterlock port index s
  | .readEntryDirectory port programme => Sys2Proof.Machine.execReadEntryDirectory port programme s
  | .readStorePage port form page offset length => Sys2Proof.Machine.execReadStorePage port form page offset length s
  | .readStoreStage port form offset length => Sys2Proof.Machine.execReadStoreStage port form offset length s
  | .readStoreMap port first count => Sys2Proof.Machine.execReadStoreMap port first count s
  | .readCounters port group => Sys2Proof.Machine.execReadCounters port group s
  | .setClock port time => Sys2Proof.Machine.execSetClock port time s
  | .setRestraint port ceiling mute => Sys2Proof.Machine.execSetRestraint port ceiling mute s
  | .halt port => Sys2Proof.Machine.execHalt port s
  | .resume port => Sys2Proof.Machine.execResume port s
  | .startShow port programme priority => Sys2Proof.Machine.execStartShow port programme priority s
  | .stopShow port player => Sys2Proof.Machine.execStopShow port player s
  | .erasePage port page => Sys2Proof.Machine.execErasePage port page s
  | .clearStage port => Sys2Proof.Machine.execClearStage port s
  | .loadStage port offset data => Sys2Proof.Machine.execLoadStage port offset data s
  | .writePage port page => Sys2Proof.Machine.execWritePage port page s
  | .publish port programme first => Sys2Proof.Machine.execPublish port programme first s
  | .remove port programme => Sys2Proof.Machine.execRemove port programme s
  | .writeCalendar port index entry => Sys2Proof.Machine.execWriteCalendar port index entry s
  | .writeSeason port index entry => Sys2Proof.Machine.execWriteSeason port index entry s
  | .writeProfile port index profile => Sys2Proof.Machine.execWriteProfile port index profile s
  | .saveTables port => Sys2Proof.Machine.execSaveTables port s
  | .enterManual port => Sys2Proof.Machine.execEnterManual port s
  | .leaveManual port => Sys2Proof.Machine.execLeaveManual port s
  | .freeze port => Sys2Proof.Machine.execFreeze port s
  | .thaw port => Sys2Proof.Machine.execThaw port s
  | .jog port axis form target profile => Sys2Proof.Machine.execJog port axis form target profile s
  | .stopAxis port axis kind => Sys2Proof.Machine.execStopAxis port axis kind s
  | .homeAxis port axis => Sys2Proof.Machine.execHomeAxis port axis s
  | .testStrike port bell velocity => Sys2Proof.Machine.execTestStrike port bell velocity s
  | .writeBell port bell config => Sys2Proof.Machine.execWriteBell port bell config s
  | .writeAxis port axis config => Sys2Proof.Machine.execWriteAxis port axis config s
  | .writeInterlock port index entry => Sys2Proof.Machine.execWriteInterlock port index entry s
  | .clearFaultBell port kind number => Sys2Proof.Machine.execClearFaultBell port kind number s
  | .clearFaultAxis port number => Sys2Proof.Machine.execClearFaultAxis port number s
  | .writeSetup port setup => Sys2Proof.Machine.execWriteSetup port setup s
  | .resetPart port => Sys2Proof.Machine.execResetPart port s
  | .badFrame port frame => Sys2Proof.Machine.execBadFrame port frame s
  | .overrun port => Sys2Proof.Machine.execOverrun port s
  | .clockHold port => Sys2Proof.Machine.execClockHold port s
  | .clockHoldLimit port => Sys2Proof.Machine.execClockHoldLimit port s
  | .mainReset cause => Sys2Proof.Machine.execMainReset cause s
  | .backupReset => Sys2Proof.Machine.execBackupReset s
  | .stabilisationEnd => Sys2Proof.Machine.execStabilisationEnd s
  | .blankTestComplete => Sys2Proof.Machine.execBlankTestComplete s
  | .showTick => Sys2Proof.Machine.execShowTick s
  | .motionTick rail => Sys2Proof.Machine.execMotionTick rail s
  | .minuteBoundary => Sys2Proof.Machine.execMinuteBoundary s
  | .slewPeriodEnd => Sys2Proof.Machine.execSlewPeriodEnd s
  | .centuryRollover => Sys2Proof.Machine.execCenturyRollover s
  | .startExpired => Sys2Proof.Machine.execStartExpired s
  | .admissionAttempt => Sys2Proof.Machine.execAdmissionAttempt s
  | .slotWaitEnd player => Sys2Proof.Machine.execSlotWaitEnd player s
  | .awaitEnd player => Sys2Proof.Machine.execAwaitEnd player s
  | .waitAxisEnd player => Sys2Proof.Machine.execWaitAxisEnd player s
  | .waitTimeout player => Sys2Proof.Machine.execWaitTimeout player s
  | .playerRelease player => Sys2Proof.Machine.execPlayerRelease player s
  | .storeWaitEnd player => Sys2Proof.Machine.execStoreWaitEnd player s
  | .readGrant => Sys2Proof.Machine.execReadGrant s
  | .readComplete => Sys2Proof.Machine.execReadComplete s
  | .erasePhaseEnd => Sys2Proof.Machine.execErasePhaseEnd s
  | .programPhaseEnd => Sys2Proof.Machine.execProgramPhaseEnd s
  | .rollIssue slot => Sys2Proof.Machine.execRollIssue slot s
  | .strikeDue => Sys2Proof.Machine.execStrikeDue s
  | .lateRemoval => Sys2Proof.Machine.execLateRemoval s
  | .slotGrant => Sys2Proof.Machine.execSlotGrant s
  | .driveEnd bell => Sys2Proof.Machine.execDriveEnd bell s
  | .contactCapture bell level => Sys2Proof.Machine.execContactCapture bell level s
  | .miss bell => Sys2Proof.Machine.execMiss bell s
  | .hammerRest bell => Sys2Proof.Machine.execHammerRest bell s
  | .moveDue axis => Sys2Proof.Machine.execMoveDue axis s
  | .moveStart axis => Sys2Proof.Machine.execMoveStart axis s
  | .interlockTimeout axis => Sys2Proof.Machine.execInterlockTimeout axis s
  | .switchEdge axis level => Sys2Proof.Machine.execSwitchEdge axis level s
  | .homeNotFound axis => Sys2Proof.Machine.execHomeNotFound axis s
  | .haltInput asserted => Sys2Proof.Machine.execHaltInput asserted s
  | .freezeExpired => Sys2Proof.Machine.execFreezeExpired s
  | .mainPowerLoss => Sys2Proof.Machine.execMainPowerLoss s
  | .resetInputDeasserted => Sys2Proof.Machine.execResetInputDeasserted s

end Sys2Proof.Machine
end

