-- ==== Sys2Proof/Safety.lean ====
section
/-! DEFINITION. What claims speak of: safe steps, quiet states, requests a port takes and how it answers, and the laws the
spec states of the whole machine. -/

namespace Sys2Proof.Machine

/-- A step is safe when it answers a next state. -/
def Safe (s : State) : Prop := ∃ t, step s = .next t

/-- No follow-up of an earlier event is owed (log 1). -/
abbrev Quiet (s : State) : Prop := nextFollow s = none ∧ s.todo = Todo.none

/-- The ticks fall, and no follow-up is owed. -/
abbrev Awake (s : State) : Prop := Quiet s ∧ s.running = true

/-- A port acknowledges its address and is not BUSY, so that it takes a write (R183 to R186). -/
abbrev Takes (s : State) (p : PortId) : Prop := s.listens p = true ∧ (s.port p).state ≠ .busy

/-- A request written to a port passes the checks before its own rule's, its port apart (R185). -/
abbrev Accepts (s : State) (p : PortId) : Prop := Quiet s ∧ Takes s p ∧ s.store.ready = true

/-- The ports the catalogue permits a request code from (R185, R196). -/
def permitted (code : Nat) (p : PortId) : Bool :=
  match code with
  | 12 | 13 | 14 | 15 => p == .venue
  | 16 | 17 => p == .venue || p == .service
  | 18 | 19 | 20 | 21 | 22 | 23 | 24 | 25 | 26 => p == .programme
  | 27 => p == .programme || p == .service
  | 28 | 29 | 30 | 31 | 32 | 33 | 34 | 35 | 36 | 37 | 38 | 39 | 40 | 41 => p == .service
  | _ => true

/-- A port that has taken a frame and answered it (R185): the frame is held, the response is DONE, the port is IDLE, and
its requests-taken counter has risen. That the request slot keeps the frame is the model's choice (log 33). -/
def Port.answered (c : Port) (frame : List Byte) (r : ResultCode) (d : List Byte) : Port :=
  { c with request := frame, response := { status := .done, result := r, data := d }, state := .idle,
           counters := { c.counters with requests := sat32 c.counters.requests } }

/-- The state with a port's answer to a request, and nothing else changed. -/
def State.answer (s : State) (p : PortId) (i : Instr) (r : ResultCode) (d : List Byte := []) : State :=
  s.modPort p fun c => c.answered ((frameOf? i).getD []) r d

/-- An event that an effect on a state reports (R190, R191): behind the records that were in the queue, every port whose
routing includes its class has the record, with the wall time while the clock is VALID and the stage time, or has lost it at a
full queue. -/
abbrev Reported (s t : State) (kind : EventKind) (subject : Option Subject) (d1 d2 : Option Int) : Prop :=
  ∀ p : PortId, (s.port p).routing.getLsbD kind.class.code = true →
    (s.port p).queue <+: (t.port p).queue ∧
    ({ kind := kind, wall := if s.backup.validity = .valid then some s.backup.wallMs else none, stage := s.time.stageTime,
       subject := subject, detail1 := d1, detail2 := d2 } ∈ (t.port p).queue.drop (s.port p).queue.length ∨
      ((t.port p).lost = true ∧ 16 ≤ (t.port p).queue.length))

/-- What entry to HALTED does at an axis (R137, R131): a MOVING or STOPPING axis goes on in an EMERGENCY stop with cause HALT,
the stop of a move that has not yet run a tick being over at once; a homing has ended; any other axis loses its pending move
and nothing else. That the steps left of a motion tick are still issued is the model's reading (log 4). -/
abbrev AxisHaltedFrom (x y : Axis) : Prop :=
  (x.state = .moving → x.velocity ≠ 0 → y =
    { x with state := .stopping, stop := some { kind := .emergency, cause := .halt }, lastAction := .decelerate
             speedRemainder := if x.lastAction = .accelerate then 0 else x.speedRemainder
             burst := x.burst.map (fun b => { b with ends := .none }), slot := none }) ∧
  (x.state = .moving → x.velocity = 0 → y =
    { x with state := if x.positionValid then .idle else .unhomed, stop := none, lastAction := .none
             stepAccumulator := 0, speedRemainder := 0, burst := none, slot := none }) ∧
  (∀ k, x.state = .stopping → x.stop = some k → y =
    { x with stop := some { kind := .emergency, cause := .halt }
             burst := if k.kind = .emergency then x.burst else x.burst.map (fun b => { b with ends := .none })
             slot := none }) ∧
  (x.state = .homing → y = { x with state := .unhomed, homing := none, burst := none, slot := none }) ∧
  ((x.state = .unhomed ∨ x.state = .idle ∨ x.state = .faulted ∨ x.state = .disabled) → y = { x with slot := none })

/-- What entry to HALTED reports (R38, R137, R153, R159): MODE_CHANGED with its cause, START_FAILED with reason HALTED for
every queued start, FREEZE_ENDED with cause HALT for a freeze, MOVE_DISCARDED with reason HALT for every pending move, and
AXIS_STOPPED with cause HALT for every stop that is over at once and every homing. -/
abbrev HaltReported (s t : State) (cause : ModeCause) : Prop :=
  Reported s t .modeChanged none (some 2) (some cause.code) ∧
  (∀ e ∈ s.shows.queue, Reported s t .startFailed (some (.programme e.programme.number)) (some 1) (some e.source.code)) ∧
  (s.time.frozen = true → Reported s t .freezeEnded none (some 1) (some s.time.frozenMs)) ∧
  ∀ a : AxisId,
    (∀ m, (s.axis a).slot = some m →
      Reported s t .moveDiscarded (some (.axis a.val)) (some m.owner.code) (some (DiscardReason.code .halt))) ∧
    ((s.axis a).state = .moving → (s.axis a).velocity = 0 →
      Reported s t .axisStopped (some (.axis a.val)) (if (s.axis a).positionValid then some (s.axis a).position else none)
        (some (StopCause.code .halt))) ∧
    ((s.axis a).state = .homing → Reported s t .axisStopped (some (.axis a.val)) none (some (StopCause.code .halt)))

/-- What entry to HALTED leaves, from a state (R153): the mode HALTED with one more halt counted and an admission attempt
owed; no queued start, strike or ACTIVE roll; every player IDLE or DRAINING under a HALTED abort; no pending move; no axis
MOVING or HOMING, each one that moved in an EMERGENCY stop; no freeze; and all of it reported. The clock, the calendar, the
hammers and the stored bytes are unchanged. -/
abbrev HaltedFrom (s t : State) (cause : ModeCause) : Prop :=
  t.stage.mode = .halted ∧ t.stage.startup = [] ∧ t.stage.counters.halts = sat32 s.stage.counters.halts ∧
  t.todo.attempt = true ∧
  t.shows.queue = [] ∧ t.strikes.queue = [] ∧ (∀ r : RollId, t.roll r = none) ∧
  (∀ p : PlayerId, (s.player p).state = .idle → (t.player p).state = .idle) ∧
  (∀ p : PlayerId, (s.player p).state ≠ .idle → (t.player p).state = .draining ∧ (t.player p).outcome = some .halted) ∧
  (∀ a : AxisId, (t.axis a).slot = none ∧ (t.axis a).state ≠ .moving ∧ (t.axis a).state ≠ .homing ∧
    (t.axis a).config = (s.axis a).config ∧ (t.axis a).claim = (s.axis a).claim ∧
    AxisHaltedFrom (s.axis a) (t.axis a)) ∧ HaltReported s t cause ∧
  t.time = { s.time with frozen := false } ∧ t.backup = s.backup ∧ t.calendar = s.calendar ∧ t.hammer = s.hammer ∧
  t.store.nvm = s.store.nvm ∧ t.store.op = s.store.op ∧ t.store.dir = s.store.dir

/-- What the taking of a store operation leaves (R162, R163): the operation in progress; its first phase under way on a
FREE read path, an erase perhaps suspended at once by a channel that runs low (R67, R165), or waiting for the read in
flight; the request answered ACCEPTED. No byte of the array, no page state and no directory entry has changed. -/
abbrev OperationBegun (s t : State) (p : PortId) (b : OpBody) (k : PhaseKind) : Prop :=
  t.store.op = some { port := p, body := b } ∧
  (s.store.path = none → t.store.waiting = none ∧
    match k with
    | .erase => t.store.array = .erasing 800 ∨ t.store.array = .suspended 800
    | .program => t.store.array = .programming 300) ∧
  (s.store.path ≠ none → t.store.waiting = some k ∧ t.store.array = s.store.array) ∧
  t.store.path = s.store.path ∧ t.store.nvm = s.store.nvm ∧ t.store.staging = s.store.staging ∧
  t.store.setup = s.store.setup ∧ t.store.last = s.store.last ∧
  (t.port p).response = { status := .done, result := .accepted, data := [] } ∧
  t.time = s.time ∧ t.backup = s.backup ∧ t.calendar = s.calendar ∧ t.strikes = s.strikes ∧ t.hammer = s.hammer ∧
  t.axes = s.axes ∧ t.shows = s.shows ∧ t.stage = s.stage ∧ t.pins = s.pins

/-! ### Stored images (R195, R198) -/

/-- A byte of an image, as a number. -/
abbrev byteIn (image : List Byte) (k : Nat) : Nat := (image.getD k 0#8).toNat

/-- An image holds a whole number in `n` bytes from an offset on, little-endian (R195); the bytes of a number too wide for
them are free (log 7). -/
abbrev Holds (image : List Byte) (offset n value : Nat) : Prop :=
  value < 256 ^ n → ((List.range n).map fun k => byteIn image (offset + k) * 256 ^ k).sum = value

/-- An image holds a signed number in two bytes, in two's complement. -/
abbrev HoldsSigned (image : List Byte) (offset : Nat) (value : Int) : Prop :=
  -32768 ≤ value → value ≤ 32767 → Holds image offset 2 (value % 65536).toNat

/-- An image holds the code of a two-valued enumeration: 0 for its first value and 1 for the other (R195), or the byte of a
stored code that names neither (log 11). -/
abbrev HoldsChoice {α : Type} [DecidableEq α] (image : List Byte) (offset : Nat) (first : α) (x : Coded α) : Prop :=
  byteIn image offset = match x with
    | .known a => if a = first then 0 else 1
    | .stray b => b.toNat

/-- A page's image: 512 bytes, the last two of which are the complement of the sum of the others (R198); the bytes from
`used` to 509 are 0xFF. -/
abbrev PageImage (image : List Byte) (used : Nat) : Prop :=
  image.length = 512 ∧ (∀ k, used ≤ k → k < 510 → byteIn image k = 255) ∧
  byteIn image 510 + 256 * byteIn image 511 = 65535 - ((List.range 510).map (byteIn image)).sum % 65536

/-! ### Readouts (R195, R196) -/

/-- One item of a readout: a whole number, or a signed one in two's complement, in a width of bytes. -/
inductive Item where
  | num (width value : Nat)
  | signed (width : Nat) (value : Int)
deriving DecidableEq, Repr

/-- The bytes an item takes. -/
def Item.width : Item → Nat
  | .num w _ | .signed w _ => w

/-- Bytes begin with an item, little-endian (R195); those of a number too wide for it are free (log 7). -/
def Item.heads (i : Item) (b : List Byte) : Bool :=
  match i with
  | .num w v => decide (Holds b 0 w v)
  | .signed w z =>
    decide (-((256 ^ w : Nat) : Int) ≤ 2 * z → 2 * z < ((256 ^ w : Nat) : Int) →
      Holds b 0 w (z % ((256 ^ w : Nat) : Int)).toNat)

/-- Bytes hold items one behind another, and nothing else. -/
def reads : List Byte → List Item → Bool
  | b, [] => b.isEmpty
  | b, i :: rest => decide (i.width ≤ b.length) && i.heads b && reads (b.drop i.width) rest

/-- A flag (R195). -/
abbrev Item.yes (b : Bool) : Item := .num 1 (if b then 1 else 0)

/-- An enumeration, numbered from 0 in the order of the list that defines it (R195). -/
abbrev Item.code {α : Type} [BEq α] (order : List α) (a : α) : Item := .num 1 (order.idxOf a)

/-- A two-valued enumeration that may stand as a stored code which names neither value (R195, log 11). -/
abbrev Item.choice {α : Type} [DecidableEq α] (first : α) (x : Coded α) : Item :=
  .num 1 (match x with
    | .known a => if a = first then 0 else 1
    | .stray b => b.toNat)

/-- The 0xFF bytes of an absent field. -/
abbrev Item.absent (width : Nat) : Item := .num width (256 ^ width - 1)

/-- An optional field of a width behind its presence byte (R195). -/
def optionally (width : Nat) (x : Option (List Item)) : List Item :=
  match x with
  | none => [.num 1 0, .absent width]
  | some items => .num 1 1 :: items

/-- A wall time (R195). -/
def wallItems (ms : Nat) : List Item :=
  let w := wallFields ms
  [.num 2 w.date.year, .num 1 w.date.month, .num 1 w.date.day, .num 1 w.hour, .num 1 w.minute, .num 1 w.second,
   .num 2 w.millisecond]

/-- Every event kind by its class, each class's in the order of R196. -/
def eventKinds : List (List EventKind) :=
  [[.showStarted, .showEnded, .startExpired, .startFailed, .waitTimeout, .scriptFault],
   [.calendarFired, .calendarSkipped, .seasonChanged], [.bellFault, .supplyRange],
   [.axisArrived, .axisStopped, .axisHomed, .axisFault, .moveDiscarded, .moveHeld, .interlockTimeout],
   [.storeDone, .versionReclaimed, .storeLoaded], [.timeStepped, .clockLost],
   [.modeChanged, .freezeStarted, .freezeEnded, .freezeExpired, .restraintChanged], [.marker]]

/-- Subject kind and number (R196). -/
def subjectItems (x : Subject) : List Item :=
  match x with
  | .player n => [.num 1 0, .num 2 n]
  | .bell n => [.num 1 1, .num 2 n]
  | .axis n => [.num 1 2, .num 2 n]
  | .page n => [.num 1 3, .num 2 n]
  | .calendarEntry n => [.num 1 4, .num 2 n]
  | .seasonEntry n => [.num 1 5, .num 2 n]
  | .programme n => [.num 1 6, .num 2 n]

/-- An event record and its extension (R196): detail 1 of TIME_STEPPED and detail 2 of CALENDAR_FIRED and CALENDAR_SKIPPED
stand behind the record in 4 bytes, every other detail in its low 24 bits. -/
def eventItems (r : EventRecord) : List Item :=
  let kinds := eventKinds.map fun ks => ks.contains r.kind
  let long1 := r.kind = .timeStepped
  let long2 := r.kind = .calendarFired ∨ r.kind = .calendarSkipped
  let low (width : Nat) (z : Int) : Item := .num width (z % ((256 ^ width : Nat) : Int)).toNat
  let bit (b : Bool) : Nat := if b then 1 else 0
  [.num 1 (kinds.idxOf true), .code (eventKinds.getD (kinds.idxOf true) []) r.kind,
   .num 1 (bit r.wall.isSome + 2 * bit r.subject.isSome + 4 * bit r.detail1.isSome + 8 * bit r.detail2.isSome)] ++
  (match r.wall with | some ms => wallItems ms | none => [.absent 9]) ++ [.num 6 r.stage] ++
  (match r.subject with | some x => subjectItems x | none => [.absent 3]) ++ [.absent 1] ++
  (match r.detail1 with | some z => [if long1 then .absent 3 else low 3 z] | none => [.absent 3]) ++
  (match r.detail2 with | some z => [if long2 then .absent 3 else low 3 z] | none => [.absent 3]) ++
  (match r.detail1 with | some z => if long1 then [low 4 z] else [] | none => []) ++
  (match r.detail2 with | some z => if long2 then [low 4 z] else [] | none => [])

/-- The data of GET_STATUS (R182, R189), with the erase time remaining in ms. That it takes no presence byte, and the bytes
of the last operation's subject, are the model's choices (logs 9, 13). -/
def statusItems (s : State) (p : PortId) (eraseMs : Nat) : List Item :=
  let c := s.port p
  let t := s.store
  let operation (k : OpKind) : Item :=
    .code [.erasePage, .writePage, .publish, .remove, .saveTables, .writeSetup] k
  let kind (b : OpBody) : OpKind := match b with
    | .erasePage _ => .erasePage
    | .writePage _ => .writePage
    | .publish _ _ _ => .publish
    | .remove _ _ => .remove
    | .saveTables _ => .saveTables
    | .writeSetup _ => .writeSetup
  let number (x : Subject) : Nat := match x with
    | .player n | .bell n | .axis n | .page n | .calendarEntry n | .seasonEntry n | .programme n => n
  let activity : Nat := match t.array with
    | .idle => 0
    | .erasing _ => 1
    | .suspended _ => 2
    | .programming _ => 3
  [.num 1 c.queue.length, .yes c.lost, .num 1 c.routing.toNat, .num 4 c.counters.overruns,
   .yes t.ready, .yes t.setupFault, .yes t.dirFault, .yes t.tableFault] ++
  optionally 1 (t.op.map fun o => [operation (kind o.body)]) ++
  [.num 1 activity, .num 1 eraseMs, .yes t.path.isSome] ++
  optionally 8 (t.last.map fun l =>
    [operation l.kind, .code [.venue, .programme, .service] l.port] ++ optionally 2 (l.subject.map fun x => [.num 2 (number x)]) ++
    [.code [.ok, .badHeader, .sameVersion, .notDraft, .invalid] l.outcome, .num 2 l.value]) ++
  [.code [.auto, .manual, .halted] s.stage.mode, .yes s.time.frozen, .num 1 s.backup.ceiling, .yes s.backup.mute,
   .code [.invalid, .valid] s.backup.validity, .yes s.hammer.supplyRange] ++
  (List.finRange 3).map (fun q => .code [.idle, .priming, .running, .waiting, .draining] (s.player q).state) ++
  [.num 1 s.shows.queue.length, .num 1 s.strikes.queue.length]

/-- The data of READ_CLOCK (R16). The oscillator's code is the model's choice (log 13). -/
def clockItems (s : State) : List Item :=
  wallItems s.backup.wallMs ++
  [.num 1 ((s.backup.wallMs / 86400000 + 5) % 7), .code [.invalid, .valid] s.backup.validity,
   .signed 2 s.backup.slewRemainder, .num 6 s.time.stageTime, .yes s.time.frozen, .num 6 s.time.freezeStage,
   .num 4 s.time.frozenMs, .code [.stabilising, .running] s.time.osc]

/-- A channel's items (R64, R76). The count before the loop stack is the model's choice (log 13), and so is the address of a
channel with no script or at its end (log 22). -/
def channelItems (c : Channel) : List Item :=
  let place : Nat × Nat :=
    if c.pageCount = 0 then (0, 0)
    else if c.next < 60 then (c.firstPage, 32 + 8 * c.next)
    else (c.firstPage + 1 + (c.next - 60) / 64, 8 * ((c.next - 60) % 64))
  [.code [.idle, .fetching, .waitingStore, .atEnd] c.state, .code [.none, .queued, .inFlight] c.read, .num 2 c.next,
   .num 2 place.1, .num 2 place.2, .num 2 (c.cueCount - c.next), .num 1 c.loops.length] ++
  c.loops.reverse.flatMap (fun e => [.num 2 e.returnIndex, .num 1 e.passesLeft]) ++
  [.num 1 c.fifo.length, .num 4 c.blocksRead, .num 4 c.storeWaits]

/-- The data of READ_PLAYER (R46, R62, R76). That the lists of R62 and of R76 stand one behind the other is the model's
choice (log 13). -/
def playerItems (s : State) (p : PlayerId) : List Item :=
  let x := s.player p
  let c := s.channel p
  [.code [.idle, .priming, .running, .waiting, .draining] x.state, .num 1 x.programme, .num 2 x.version, .num 1 x.priority,
   .num 1 x.source, .num 4 x.admission, .num 6 x.start, .num 4 x.waiting, .num 4 x.lastDue, .num 4 x.headDue] ++
  optionally 1 (x.reason.map fun r => [.code [.slot, .await, .waitAxis] r]) ++
  optionally 1 (x.awaited.map fun a => [.num 1 a.val]) ++ optionally 6 (x.deadline.map fun d => [.num 6 d]) ++
  optionally 1 (x.outcome.map fun o => [.code [.completed, .stopped, .preempted, .halted] o]) ++
  [.num 4 x.counters.dispatched, .num 4 x.counters.starved, .num 4 x.counters.movesSkipped, .num 4 x.counters.waitTimeouts,
   .num 4 x.showTime, .num 1 c.fifo.length, .code [.idle, .fetching, .waitingStore, .atEnd] c.state] ++
  channelItems c

/-- The data of READ_QUEUE with START (R36, R62). -/
def startQueueItems (s : State) : List Item :=
  let source (x : Source) : Nat := match x with
    | .calendar k => k.val
    | .venue => 64
    | .service => 65
  [.num 1 s.shows.queue.length] ++
  s.shows.queue.flatMap (fun e =>
    [.num 1 (e.programme.val + 1), .num 1 e.priority, .num 1 (source e.source)] ++
    optionally 4 (e.stamp.map fun m => [.num 4 m]) ++ [.num 6 e.arrival, .num 6 e.expiry]) ++
  s.shows.queue.map (fun e => .num 4 (e.expiry - s.time.stageTime))

/-- The data of READ_QUEUE with STRIKE (R79, R95, R104). That an owner of none is an absent field, and the bytes of a FREE
slot, are the model's choices (log 13). -/
def strikeQueueItems (s : State) : List Item :=
  [.num 1 s.strikes.queue.length] ++
  s.strikes.queue.flatMap (fun e =>
    [.num 1 e.bell.val, .num 1 e.velocity, .num 2 e.drive, .num 2 e.flight, .num 6 e.sound, .num 6 e.launch,
     .num 6 e.latest, .num 6 e.guardEnd] ++ optionally 1 (e.owner.map fun p => [.num 1 p.val]) ++
    optionally 1 (e.slot.map fun r => [.num 1 r.val]) ++ [.num 4 e.number]) ++
  (List.finRange 4).flatMap fun r => optionally 13 ((s.roll r).map fun x =>
    [.num 1 x.owner.val, .num 1 x.bell.val, .num 1 x.velocity, .num 1 x.intervalA, .num 1 x.intervalB,
     .code [.a, .b] x.next, .num 6 x.nextSound, .num 1 x.remaining])

/-- A bell's hammer (R105). -/
def hammerItems (h : Hammer) : List Item :=
  let pulse : Option (Nat × Nat) := match h.state with
    | .rest => none
    | .driving start drive _ | .flight start drive | .recovering start drive _ => some (start, drive)
  let state : Nat := match h.state with
    | .rest => 0
    | .driving _ _ _ => 1
    | .flight _ _ => 2
    | .recovering _ _ _ => 3
  [.num 1 state] ++ optionally 6 (pulse.map fun x => [.num 6 x.1]) ++ optionally 2 (pulse.map fun x => [.num 2 x.2]) ++
  optionally 6 (pulse.map fun x => [.num 6 (x.1 + x.2)]) ++
  optionally 1 (match h.state with | .driving _ _ k => some [.num 1 k] | _ => none) ++
  optionally 6 (match h.state with | .flight start drive => some [.num 6 (start + drive + 100)] | _ => none) ++
  optionally 6 (match h.state with | .flight start drive => some [.num 6 (start + drive + 3000)] | _ => none) ++
  optionally 6 (match h.state with | .recovering _ _ rest => some [.num 6 rest] | _ => none) ++
  optionally 8 (h.lastContact.map fun x => [.num 6 x.1, .num 2 x.2])

/-- The data of READ_BELL (R77, R104, R121). -/
def bellItems (s : State) (b : BellId) : List Item :=
  let x := s.bell b
  [.code [.inService, .faulted, .disabled] x.state, .num 2 x.driveMin, .num 2 x.driveMax, .num 2 x.recover,
   .num 2 x.flightInit, .num 2 x.flight, .num 1 x.velocityCap, .choice .activeHigh x.outputPolarity,
   .choice .activeHigh x.contactPolarity, .num 1 x.misses, .num 4 x.launched,
   .num 2 (min 2000 (x.driveMax + x.driveMax / 4))] ++
  optionally 6 (x.guardEnd.map fun g => [.num 6 g]) ++
  [.num 1 (s.strikes.queue.filter fun e => e.bell = b).length] ++
  optionally 1 (((List.finRange 4).find? fun r => (s.roll r).any fun y => y.bell = b).map fun r => [.num 1 r.val]) ++
  hammerItems (s.hammerOf b) ++ [.num 6 s.time.hammerTime, .num 2 s.hammer.uRaw, .yes s.hammer.supplyRange]

/-- The configuration of an axis (R122). -/
def axisConfigItems (c : AxisConfig) : List Item :=
  [.yes c.enabled, .signed 2 c.softLow, .signed 2 c.softHigh, .signed 2 c.home, .choice .negative c.homeDirection,
   .num 2 c.homeSpeed, .num 2 c.searchTravel, .num 1 c.slipTolerance, .num 4 c.emergencyDeceleration,
   .choice .activeHigh c.stepPolarity, .choice .highPositive c.directionPolarity, .choice .pushPull c.pinMode,
   .choice false c.pullUp, .choice .high c.switchActive]

/-- The number of a move's owner (R195). -/
def ownerNumber (o : MoveOwner) : Nat :=
  match o with
  | .player p => p.val
  | .service => 3

/-- A profile (R125). -/
def profileItems (p : Profile) : List Item := [.num 2 p.maxSpeed, .num 4 p.acceleration, .num 4 p.deceleration]

/-- The data of READ_AXIS (R122, R123, R126, R144). That the pending move is given for R123 and again for R144 is the model's
choice (log 13). -/
def axisItems (s : State) (a : AxisId) : List Item :=
  let x := s.axis a
  let move : List Item := optionally 19 (x.slot.map fun m =>
    [.signed 2 m.target, .yes m.clamped, .num 1 m.profile.val, .num 6 m.due, .num 1 (ownerNumber m.owner),
     .yes m.held.isSome] ++ optionally 6 (m.held.map fun h => [.num 6 h]))
  axisConfigItems x.config ++
  [.code [.unhomed, .homing, .idle, .moving, .stopping, .faulted, .disabled] x.state, .signed 2 x.position,
   .yes x.positionValid, .num 2 x.velocity, .num 2 x.stepAccumulator, .num 2 x.speedRemainder,
   .code [.none, .accelerate, .decelerate] x.lastAction, .signed 2 x.target, .yes x.clamped] ++
  profileItems x.profile ++ [.num 1 (ownerNumber x.owner)] ++
  optionally 1 (x.stop.map fun k => [.code [.controlled, .emergency] k.kind]) ++
  optionally 1 (x.stop.map fun k => [.code [.stopAxis, .abort, .halt, .mode, .slip] k.cause]) ++
  optionally 4 (x.homing.map fun h =>
    [.code [.backoff, .search] h.phase, .num 2 h.travel, .code [.homeAxis, .automatic] h.origin]) ++
  optionally 2 (x.passage.map fun q => [.code [.low, .high] q.side, .yes q.edgeSeen]) ++
  optionally 1 (x.claim.map fun p => [.num 1 p.val]) ++ move ++
  optionally 1 (x.fault.map fun r => [.code [.homeNotFound, .slip, .limit] r]) ++ move ++
  [.code [.high, .low] s.pins.switch[a]]

/-- A calendar entry and its last-handled stamp (R20, R35). -/
def calendarItems (s : State) (k : CalId) : List Item :=
  let e := s.calendar.entries[k]
  [.yes e.enabled, .num 1 e.programme, .code [.dailyAt, .hourly, .interval, .noKind] e.kind, .num 1 e.hour, .num 1 e.minute,
   .num 1 e.hourlyMinute, .num 1 e.firstHour, .num 1 e.lastHour, .num 2 e.interval, .num 2 e.windowFirst,
   .num 2 e.windowLast, .num 1 e.weekdays.toNat, .num 2 e.seasons.toNat, .num 1 e.priority, .code [.play, .skip] e.silent] ++
  optionally 4 (s.backup.stamps[k].map fun m => [.num 4 m])

/-- A season entry, the active season, and the entry that gave it (R22, R35). -/
def seasonItems (s : State) (k : SeasonId) : List Item :=
  let e := s.calendar.seasons[k]
  [.yes e.enabled, .num 1 e.startMonth, .num 1 e.startDay, .num 1 e.endMonth, .num 1 e.endDay, .num 1 e.seasonId,
   .num 1 e.rank, .num 1 s.calendar.active] ++
  optionally 1 (if s.calendar.active = 0 then none else s.calendar.activeEntry.map fun i => [.num 1 i.val])

/-- An interlock entry with the three tests of R146 (R145, R151). -/
def interlockItems (s : State) (k : InterlockId) : List Item :=
  let e := s.axes.interlocks[k]
  [.yes e.enabled, .num 1 e.guarded, .signed 2 e.safeLow, .signed 2 e.safeHigh, .num 1 e.condition, .signed 2 e.windowLow,
   .signed 2 e.windowHigh, .yes (s.satisfied e), .yes (s.inside e), .yes (s.committed e)]

/-- A directory entry (R170). -/
def directoryItems (s : State) (g : ProgId) : List Item :=
  let version (v : Version) : List Item :=
    [.num 2 v.version, .num 2 v.firstPage, .num 1 v.pageCount, .num 2 v.cueCount, .num 1 v.axisMask.toNat,
     .num 1 v.priority, .num 2 v.latestStart, .num 1 v.references]
  [.yes (s.dirEntry g).live.isSome] ++ optionally 12 ((s.dirEntry g).live.map version) ++
  optionally 12 ((s.dirEntry g).retiring.map version)

/-- The counters of a group, in the order of the rule that lists them (R34, R61, R103, R121, R144, R160, R182, R183). -/
def counterItems (s : State) (group : Nat) : List Item :=
  let all (ns : List Nat) : List Item := ns.map (.num 4 ·)
  let c := s.calendar.counters
  let w := s.shows.counters
  let k := s.strikes.counters
  let h := s.hammer.counters
  let x := s.axes.counters
  let g := s.stage.counters
  let t := s.store.counters
  let port (p : PortId) : List Nat :=
    let n := (s.port p).counters
    [n.requests, n.badFrames, n.overruns, n.discarded]
  all ([[c.fired, c.clockInvalid, c.mode, c.silent, c.late, c.notFound, c.queueFull],
    [w.arrivals, w.refusedFull, w.admitted, w.expired, w.failedNotFound, w.failedHalted, w.preemptions, w.endedCompleted,
     w.endedStopped, w.endedPreempted, w.endedHalted],
    [k.enqueued, k.launched, k.muted, k.late, k.flushed, k.refusedCollided, k.refusedFull, k.refusedUnavailable,
     k.rollsDegraded],
    [h.contacts, h.misses, h.bellFaults, h.supplyExcursions],
    [x.movesStarted, x.arrivals, x.clamped, x.movesDiscarded, x.stops, x.homings, x.homeNotFound, x.slips, x.limitFaults],
    [g.halts, g.freezes, g.freezeExpiries, g.movesHeld, g.interlockTimeouts],
    [t.pagesErased, t.pagesProgrammed, t.publishes, t.failedPublishes, t.removes, t.reclaims, t.saves, t.eraseSuspends],
    port .venue ++ port .programme ++ port .service].getD group [])

/-! ### What a stored page gives (R195, R198) -/

/-- The number in `n` bytes from an offset of a page on, little-endian. -/
def numberAt (page : Nat → Byte) (n offset : Nat) : Nat :=
  ((List.range n).map fun k => (page (offset + k)).toNat * 256 ^ k).sum

/-- A signed number in two bytes. -/
def signedAt (page : Nat → Byte) (offset : Nat) : Int :=
  if numberAt page 2 offset < 32768 then numberAt page 2 offset else (numberAt page 2 offset : Int) - 65536

/-- A two-valued enumeration, or a code that names neither value, kept as stored. -/
def choiceAt {α : Type} (first second : α) (page : Nat → Byte) (offset : Nat) : Coded α :=
  if page offset = 0#8 then .known first else if page offset = 1#8 then .known second else .stray (page offset)

/-- A calendar entry: disabled, with its other fields as stored, when a field is out of range (R20, R32). -/
def calendarAt (page : Nat → Byte) (o : Nat) : CalendarEntry :=
  let n (k : Nat) : Nat := numberAt page 1 (o + k)
  let bounds := numberAt page 3 (o + 9)
  let kind : CalendarKind := [.dailyAt, .hourly, .interval].getD (n 0 / 2 % 4) .noKind
  let e : CalendarEntry :=
    { enabled := false, programme := n 1, kind := kind, hour := n 2, minute := n 3, hourlyMinute := n 4, firstHour := n 5
      lastHour := n 6, interval := numberAt page 2 (o + 7), windowFirst := bounds % 4096, windowLast := bounds / 4096
      weekdays := page (o + 12) &&& 0x7F#8, seasons := BitVec.ofNat 16 (numberAt page 2 (o + 13)), priority := n 0 / 16 % 8
      silent := if n 0 / 8 % 2 = 1 then .skip else .play }
  { e with enabled := decide (n 0 % 2 = 1 ∧ 1 ≤ e.programme ∧ e.programme ≤ 64 ∧
      ((kind = .dailyAt ∧ e.hour ≤ 23 ∧ e.minute ≤ 59) ∨
       (kind = .hourly ∧ e.hourlyMinute ≤ 59 ∧ e.firstHour ≤ e.lastHour ∧ e.lastHour ≤ 23) ∨
       (kind = .interval ∧ 5 ≤ e.interval ∧ e.interval ≤ 720 ∧ e.windowFirst ≤ e.windowLast ∧ e.windowLast ≤ 1439))) }

/-- A season entry: disabled, with its other fields as stored, when a field is out of range (R31, R32). -/
def seasonAt (page : Nat → Byte) (o : Nat) : SeasonEntry :=
  let n (k : Nat) : Nat := numberAt page 1 (o + k)
  let days (month : Nat) : Nat :=
    if month = 2 then 29 else if month = 4 ∨ month = 6 ∨ month = 9 ∨ month = 11 then 30 else 31
  { enabled := decide (n 0 = 1 ∧ 1 ≤ n 1 ∧ n 1 ≤ 12 ∧ 1 ≤ n 2 ∧ n 2 ≤ days (n 1) ∧ 1 ≤ n 3 ∧ n 3 ≤ 12 ∧ 1 ≤ n 4 ∧
      n 4 ≤ days (n 3) ∧ 1 ≤ n 5 ∧ n 5 ≤ 15 ∧ n 6 ≤ 15)
    startMonth := n 1, startDay := n 2, endMonth := n 3, endDay := n 4, seasonId := n 5, rank := n 6 }

/-- A profile: one with a field out of range is 50, 10, 10 (R125). -/
def profileAt (page : Nat → Byte) (o : Nat) : Profile :=
  let p : Profile :=
    { maxSpeed := numberAt page 2 o, acceleration := numberAt page 4 (o + 2), deceleration := numberAt page 4 (o + 6) }
  if 1 ≤ p.maxSpeed ∧ p.maxSpeed ≤ 20000 ∧ 10 ≤ p.acceleration ∧ p.acceleration ≤ 100000 ∧ 10 ≤ p.deceleration ∧
      p.deceleration ≤ 100000 then p
  else { maxSpeed := 50, acceleration := 10, deceleration := 10 }

/-- An interlock entry: not enabled, with its other fields as stored, when it is not well formed (R145). -/
def interlockAt (page : Nat → Byte) (o : Nat) : Interlock :=
  let e : Interlock :=
    { enabled := false, guarded := numberAt page 1 (o + 1), safeLow := signedAt page (o + 2), safeHigh := signedAt page (o + 4)
      condition := numberAt page 1 (o + 6), windowLow := signedAt page (o + 7), windowHigh := signedAt page (o + 9) }
  { e with enabled := decide (page o = 1#8 ∧ e.guarded ≤ 7 ∧ e.condition ≤ 7 ∧ e.guarded ≠ e.condition ∧
      e.safeLow ≤ e.safeHigh ∧ e.windowLow ≤ e.windowHigh) }

/-- A bell as page 7 gives it: DISABLED, with its other fields as stored, when a field is out of range; the flight estimate
is flight_init, no miss and no strike is counted, and its guard end is what it was (R77, R78). -/
def bellAt (page : Nat → Byte) (o : Nat) (guardEnd : Option Nat) : Bell :=
  let n (width k : Nat) : Nat := numberAt page width (o + k)
  { state := if page o = 0#8 ∧ 20 ≤ n 2 1 ∧ n 2 1 ≤ n 2 3 ∧ n 2 3 ≤ 2000 ∧ n 2 5 ≤ 25000 ∧ 100 ≤ n 2 7 ∧ n 2 7 ≤ 3000 ∧
        1 ≤ n 1 9 ∧ n 1 9 ≤ 127 ∧ (page (o + 10) = 0#8 ∨ page (o + 10) = 1#8) ∧
        (page (o + 11) = 0#8 ∨ page (o + 11) = 1#8) then .inService else .disabled
    driveMin := n 2 1, driveMax := n 2 3, recover := n 2 5, flightInit := n 2 7, flight := n 2 7, velocityCap := n 1 9
    outputPolarity := choiceAt .activeHigh .activeLow page (o + 10)
    contactPolarity := choiceAt .activeHigh .activeLow page (o + 11), misses := 0, launched := 0, guardEnd := guardEnd }

/-- An axis configuration: not enabled, with its other fields as stored, when it is not well formed (R122). -/
def axisConfigAt (page : Nat → Byte) (o : Nat) : AxisConfig :=
  let c : AxisConfig :=
    { enabled := false, softLow := signedAt page (o + 1), softHigh := signedAt page (o + 3), home := signedAt page (o + 5)
      homeDirection := choiceAt .negative .positive page (o + 7), homeSpeed := numberAt page 2 (o + 8)
      searchTravel := numberAt page 2 (o + 10), slipTolerance := numberAt page 1 (o + 12)
      emergencyDeceleration := numberAt page 4 (o + 13), stepPolarity := choiceAt .activeHigh .activeLow page (o + 17)
      directionPolarity := choiceAt .highPositive .lowPositive page (o + 18)
      pinMode := choiceAt .pushPull .openDrain page (o + 19), pullUp := choiceAt false true page (o + 20)
      switchActive := choiceAt .high .low page (o + 21) }
  { c with enabled := decide (page o = 1#8 ∧ c.softLow < c.softHigh ∧ c.softLow ≤ c.home ∧ c.home ≤ c.softHigh ∧
      1 ≤ c.homeSpeed ∧ c.homeSpeed ≤ 20000 ∧ 1 ≤ c.searchTravel ∧ 10 ≤ c.emergencyDeceleration ∧
      c.emergencyDeceleration ≤ 100000) && [7, 17, 18, 19, 20, 21].all fun k => page (o + k) = 0#8 ∨ page (o + k) = 1#8 }

/-! ### Automatic homing (R132, R134) -/

/-- A homing begins: BACKOFF away from a switch that is made, else SEARCH toward it; the axis leaves the start-up list. -/
def State.homingBegun (s : State) (a : AxisId) (origin : HomingOrigin) : State :=
  let made := (s.axis a).config.made s.pins.switch[a]
  (s.modAxis a fun x =>
    { x with
      positionValid := false, passage := none, stepAccumulator := 0, state := .homing
      homing := some { phase := if made then .backoff else .search, travel := 0, origin := origin }
      direction := if made then x.config.homeDir.opposite else x.config.homeDir }).modStage fun g =>
    { g with startup := g.startup.filter (· != a) }

/-- An automatic request begins the homing of an axis (R134). -/
abbrev State.mayHome (s : State) (a : AxisId) : Prop :=
  (s.axis a).state = .unhomed ∧ (s.axis a).claim = none ∧ s.stage.mode ≠ .halted ∧ s.homingObstacle a = none

/-! ### Laws of the whole machine -/

/-- The listed cells of the store are in canonical form. -/
abbrev ArrayCanonical (s : State) : Prop := Memory.wf s.store.nvm.cells = true

/-- The queues hold no more than their capacity: 8 starts (R36), 32 strikes (R79), 16 events at each port (R191). Starts are
in the order of priority, highest first (R36); strikes in that of launch time, bell number and enqueue number (R79), of
numbers already given. -/
abbrev QueuesLawful (s : State) : Prop :=
  s.shows.queue.length ≤ 8 ∧ s.strikes.queue.length ≤ 32 ∧
  (s.port .venue).queue.length ≤ 16 ∧ (s.port .programme).queue.length ≤ 16 ∧ (s.port .service).queue.length ≤ 16 ∧
  s.shows.queue.Pairwise (fun a b => b.priority ≤ a.priority) ∧
  s.strikes.queue.Pairwise (fun a b => a.before b = true) ∧ ∀ e ∈ s.strikes.queue, e.number ≤ s.strikes.enqueued

/-- The law of the FIFO for a channel (R69): at most 16 cues and 4 loops. A channel with a read asked for is not waiting
for the store nor AT_END, and either asked with at most 8 cues (R66, R67, R72). -/
abbrev Channel.lawful (c : Channel) : Prop :=
  c.fifo.length ≤ 16 ∧ c.loops.length ≤ 4 ∧
  (c.read ≠ .none → c.fifo.length ≤ 8 ∧ c.state ≠ .waitingStore ∧ c.state ≠ .atEnd) ∧
  (c.state = .waitingStore → c.fifo.length ≤ 8)

/-- The law of the FIFO (R69). -/
abbrev FifoLaw (s : State) : Prop := ∀ p : PlayerId, (s.channel p).lawful

/-- The law of strike conservation (R103), for as long as the enqueued counter has not reached its largest value. -/
abbrev StrikesConserved (s : State) : Prop :=
  s.strikes.counters.enqueued < Config.maxStage →
    s.strikes.counters.enqueued = s.strikes.counters.launched + s.strikes.counters.muted + s.strikes.counters.late +
      s.strikes.counters.flushed + s.strikes.queue.length

/-- The law of the halted stage (R153), with the rolls FREE: in HALTED every player is IDLE or DRAINING under a HALTED
abort, the start queue and the strike queue are empty, and no roll is ACTIVE. -/
abbrev HaltedLaw (s : State) : Prop :=
  s.stage.mode = .halted →
    (∀ p : PlayerId, (s.player p).state = .idle ∨ ((s.player p).state = .draining ∧ (s.player p).outcome = some .halted)) ∧
    s.shows.queue = [] ∧ s.strikes.queue = [] ∧ ∀ r : RollId, s.roll r = none

/-- A bell in DRIVING holds the slot it was granted (R107). -/
def State.holdsItsSlot (s : State) (b : BellId) : Bool :=
  match (s.hammerOf b).state with
  | .driving _ _ k => s.hammer.slots[k]? == some (some b)
  | _ => true

/-- LOADING has yet to deliver page 0 (R179). -/
def LoadStep.beforeSetup (l : LoadStep) : Bool :=
  match l with
  | .notBegun | .reading 0 _ => true
  | _ => false

/-- The law of drive slots (R107): a bell in DRIVING holds the slot it was granted, of at most six; and there is no slot
before LOADING delivers page 0. -/
abbrev SlotLaw (s : State) : Prop :=
  s.hammer.slots.length ≤ 6 ∧ (∀ b : BellId, s.holdsItsSlot b = true) ∧
  (s.time.osc = .stabilising ∨ s.store.load.beforeSetup = true → s.hammer.slots = [])

/-- A page is owned by a LIVE or a RETIRING version. -/
def State.owned (s : State) (p : Nat) : Bool := s.pageState p == some .live || s.pageState p == some .retiring

/-- An operation's phases work on a page that no version owns: a programme page of its own, or a system page. -/
def State.worksOutside (s : State) (b : OpBody) : Bool :=
  match b with
  | .erasePage p | .writePage p => decide (8 ≤ p) && decide (p < 512) && !s.owned p
  | .saveTables images => images.all fun x => decide (x.1 < 8)
  | .publish _ _ _ | .remove _ _ | .writeSetup _ => true

/-- The law of owned pages (R161): operations are of a READY store, whose LOADING is done, with the oscillator RUNNING,
and work on no owned page. -/
abbrev PagesLaw (s : State) : Prop :=
  (s.store.ready = true → s.time.osc = .running ∧ s.store.load = .done) ∧
  ∀ op, s.store.op = some op → s.store.ready = true ∧ s.worksOutside op.body = true

end Sys2Proof.Machine
end

