-- ==== Sys2Proof/WellFormed.lean ====
section
/-! DEFINITION. Well-formed commands: a request is one a frame can spell (R196), and a BAD_FRAME row carries bytes that no
request's frame has (R185, check 1). -/

namespace Sys2Proof

/-- The queue byte of READ_QUEUE is not the one of the other row. -/
def queueByteOk (q : Byte) : Bool := q != 1#8

/-- The table byte of READ_ENTRY is none of the other rows'. -/
def tableByteOk (t : Byte) : Bool := t != 1#8 && t != 2#8 && t != 3#8 && t != 4#8

/-- The form byte of a 6-byte READ_STORE is PAGE or none. -/
def pageFormOk (f : Byte) : Bool := f != 1#8 && f != 2#8

/-- The form byte of a 4-byte READ_STORE other than MAP is STAGE or none. -/
def stageFormOk (f : Byte) : Bool := f != 0#8 && f != 2#8

/-- LOAD_STAGE carries 1 to 64 data bytes (R166). -/
def stageDataOk (d : List Byte) : Bool := 1 ≤ d.length && d.length ≤ 64

/-- The target byte of CLEAR_FAULT is not AXIS. -/
def faultKindOk (k : Byte) : Bool := k != 1#8

/-- Bytes a write may leave at a port, at least one and at most 74, that are no well-formed frame (R184, R185). -/
def malformed (frame : List Byte) : Bool :=
  !frame.isEmpty && decide (frame.length ≤ 74) && (requestOfFrame? .venue frame).isNone

/-- The command is well formed. -/
def Instr.wellFormed : Instr → Bool
  | .readQueueStart _ q => queueByteOk q
  | .readEntryCalendar _ t _ => tableByteOk t
  | .readStorePage _ f _ _ _ => pageFormOk f
  | .readStoreStage _ f _ _ => stageFormOk f
  | .loadStage _ _ d => stageDataOk d
  | .clearFaultBell _ k _ => faultKindOk k
  | .badFrame _ frame => malformed frame
  | .getStatus _ | .nextEvent _ | .setRouting _ _ | .readClock _ | .readPlayer _ _ | .readQueueStrike _ | .readBell _ _
  | .readAxis _ _ | .readEntrySeason _ _ | .readEntryProfile _ _ | .readEntryInterlock _ _ | .readEntryDirectory _ _
  | .readStoreMap _ _ _ | .readCounters _ _ | .setClock _ _ | .setRestraint _ _ _ | .halt _ | .resume _
  | .startShow _ _ _ | .stopShow _ _ | .erasePage _ _ | .clearStage _ | .writePage _ _ | .publish _ _ _ | .remove _ _
  | .writeCalendar _ _ _ | .writeSeason _ _ _ | .writeProfile _ _ _ | .saveTables _ | .enterManual _ | .leaveManual _
  | .freeze _ | .thaw _ | .jog _ _ _ _ _ | .stopAxis _ _ _ | .homeAxis _ _ | .testStrike _ _ _ | .writeBell _ _ _
  | .writeAxis _ _ _ | .writeInterlock _ _ _ | .clearFaultAxis _ _ | .writeSetup _ _ | .resetPart _ | .overrun _
  | .clockHold _ | .clockHoldLimit _ | .mainReset _ | .backupReset | .stabilisationEnd | .blankTestComplete | .showTick
  | .motionTick _ | .minuteBoundary | .slewPeriodEnd | .centuryRollover | .startExpired | .admissionAttempt
  | .slotWaitEnd _ | .awaitEnd _ | .waitAxisEnd _ | .waitTimeout _ | .playerRelease _ | .storeWaitEnd _ | .readGrant
  | .readComplete | .erasePhaseEnd | .programPhaseEnd | .rollIssue _ | .strikeDue | .lateRemoval | .slotGrant
  | .driveEnd _ | .contactCapture _ _ | .miss _ | .hammerRest _ | .moveDue _ | .moveStart _ | .interlockTimeout _
  | .switchEdge _ _ | .homeNotFound _ | .haltInput _ | .freezeExpired | .mainPowerLoss | .resetInputDeasserted => true

end Sys2Proof
end

