-- ==== Sys2Proof/Certificates/Slice0/Obligations.lean ====
section
/-! DEFINITION. The statements about this model for the provers. Each docstring names the rules of spec/ it rests on, and
says where a clause is the model's own choice. -/

open Sys2Proof Sys2Proof.Machine

/-! ### The machine -/

/-- A step takes the command at the front of the queue, and runs it with the rest of the queue (log 1). -/
def Obligations.StepTakesFrontCommand : Prop :=
  ∀ (c : Instr) (rest : List Instr) (s : State), s.pending = c :: rest → step s = exec c { s with pending := rest }

/-- On an empty queue a step takes the next due event, or lets 10 µs of real time pass (the model's choice, log 1). -/
def Obligations.StepOnEmptyQueue : Prop :=
  ∀ s : State, s.pending = [] →
    (∀ e, nextDue s = some e → step s = exec e s) ∧ (nextDue s = none → step s = .next (tick s))

/-- Every command is answered with a next state whose queue it has left alone, and every step is safe. -/
def Obligations.EveryCommandAnswers : Prop :=
  (∀ (i : Instr) (s : State), ∃ t, exec i s = .next t ∧ t.pending = s.pending) ∧ ∀ s : State, Safe s

/-- 10 µs while the main oscillator runs (R1 to R3): hammer time rises by one, and every hundredth is a motion tick;
stage time rises by one unless FROZEN, and is then a show tick at every hundredth. The wall clock runs beside them, at the
same rate (the model's choice, log 14). No bell and no table changes, no claim, setup value, staged or stored byte, no request
and no answer of a port, and of a player at most that its awaited move has ended. While the oscillator stabilises only that
interval and the wall clock run.

Outside a slew the clock gains 1 ms every 100 ticks (R7), or the minute's end is ahead of it. In a slew the milliseconds
are those of the slew period, whose last is withheld until its end (R12); that they are, and where they begin, is the model's
phase of the clock (log 3). Of the store's timers an erase, a programming phase, a read and a blank test have a tick less to
go, and a suspended erase keeps its time (R163 to R165).

The axes take the tick in ascending number (the model's choice, log 23). At each axis it ends the last step's pulse, takes a slip that step left open (log 5), and issues the next step of the
motion tick's burst when it falls on this tick (R129). A step moves the position by one, or raises the travel of a homing
by one (R132); at an axis with a valid position it sets, keeps or ends the passage, or is a crossing with no edge seen
(R135). At the burst's last step, or at once in a tick of no step, the motion arrives (R130), its stop completes, or it faults
with LIMIT (R131), or it goes on; that this is done as that step is issued is the model's reading (log 4), and that a last
step which is also a crossing with no edge seen neither arrives, completes a stop nor faults with LIMIT is its choice
(log 5). -/
def Obligations.TickRunsTheTimebase : Prop :=
  ∀ s : State,
    (s.running = true → s.time.hammerTime < Config.maxStage → s.time.stageTime < Config.maxStage →
      let t := tick s
      t.time.hammerTime = s.time.hammerTime + 1 ∧
      t.time.stageTime = (if s.time.frozen then s.time.stageTime else s.time.stageTime + 1) ∧
      t.time.motionTickDue = decide (99 ≤ s.time.motionPhase) ∧
      t.time.motionPhase = (if s.time.motionPhase < 99 then s.time.motionPhase + 1 else 0) ∧
      t.time.showTickDue = (if s.time.frozen then s.time.showTickDue else (s.time.stageTime + 1) % 100 == 0) ∧
      t.time.frozen = s.time.frozen ∧ t.time.freezeStage = s.time.freezeStage ∧ t.time.frozenMs = s.time.frozenMs ∧
      t.time.osc = s.time.osc ∧
      t.backup = s.backup.clockTick ∧ t.pins = s.pins ∧ t.calendar = s.calendar ∧ t.channels = s.channels ∧
      t.strikes = s.strikes ∧ t.hammer = s.hammer ∧ t.shows.queue = s.shows.queue ∧ t.stage.mode = s.stage.mode ∧
      t.store.nvm = s.store.nvm ∧ t.store.map = s.store.map ∧ t.store.dir = s.store.dir ∧
      t.store.setup = s.store.setup ∧ t.store.staging = s.store.staging ∧ t.store.op = s.store.op ∧
      t.store.last = s.store.last ∧ t.axes.profiles = s.axes.profiles ∧ t.axes.interlocks = s.axes.interlocks ∧
      (∀ a : AxisId, (t.axis a).config = (s.axis a).config ∧ (t.axis a).claim = (s.axis a).claim) ∧
      (∀ p : PlayerId, { t.player p with awaitOver := (s.player p).awaitOver } = s.player p) ∧
      ∀ p : PortId, (t.port p).state = (s.port p).state ∧ (t.port p).request = (s.port p).request ∧
        (t.port p).response = (s.port p).response ∧ (t.port p).routing = (s.port p).routing ∧
        (t.port p).address = (s.port p).address) ∧
    (s.running = false →
      tick s = { s with
        backup := s.backup.clockTick
        time := { s.time with
          stabElapsed := if s.time.osc = .stabilising ∧ s.pins.mainPower = true ∧ s.pins.resetIn = false
            then s.time.stabElapsed + 1 else s.time.stabElapsed } }) ∧
    (∀ b : Backup,
      let on (c : Backup) : Backup :=
        if (c.wallMs + 1) / 60000 = c.wallMs / 60000 then { c with wallMs := c.wallMs + 1 } else { c with boundaryAhead := 1 }
      (b.slewRemainder = 0 → b.wallSub < 99 → b.clockTick = { b with wallSub := b.wallSub + 1, slewElapsed := 0 }) ∧
      (b.slewRemainder = 0 → 99 ≤ b.wallSub → b.clockTick = on { b with wallSub := 0, slewElapsed := 0 }) ∧
      (b.slewRemainder = 0 → b.wallSub < 100 →
        Nat.repeat Backup.clockTick 100 b = on { b with slewElapsed := 0 }) ∧
      (b.slewRemainder ≠ 0 →
        let e := b.slewElapsed + 1
        ((e % 100 ≠ 0 ∨ 10000 ≤ e) → b.clockTick = { b with wallSub := e % 100, slewElapsed := e }) ∧
        (e % 100 = 0 → e < 10000 → b.clockTick = on { b with wallSub := 0, slewElapsed := e })) ∧
      ∀ n : Nat, b.slewRemainder ≠ 0 → b.slewElapsed = 0 → (b.wallMs + 99) / 60000 = b.wallMs / 60000 → 1 ≤ n →
        n ≤ 10000 → Nat.repeat Backup.clockTick n b =
          { b with wallMs := b.wallMs + min (n / 100) 99, wallSub := n % 100, slewElapsed := n }) ∧
    (∀ t : Store,
      ∃ v, t.tick = { t with array := v, path := t.path.map fun f => { f with left := f.left - 1 }
                             blankLeft := t.blankLeft.map (· - 1) } ∧
        (t.array = .idle → v = .idle) ∧ ∀ n : Nat,
          (t.array = .erasing n → v = .erasing (n - 1)) ∧ (t.array = .programming n → v = .programming (n - 1)) ∧
          (t.array = .suspended n → v = .suspended n)) ∧
    (s.running = true →
      let clocks := ((s.modBackup Backup.clockTick).modTime Time.tick).modStore Store.tick
      let held := allPorts.foldl (fun u p => u.modPort p fun c => { c with hold := c.hold.map fun n => n + 1 }) clocks
      tick s = (allAxes.foldl State.axisHammerTick held).close) ∧
    ∀ a : AxisId,
      let x := s.axis a
      let low := s.modAxis a fun y => { y with pulse := false }
      (x.slipDue = false → s.axisHammerTick a = low.stepAxis a) ∧
      (x.slipDue = true → s.axisHammerTick a = (low.slip a).stepAxis a ∧
        (x.state = .moving → x.velocity ≠ 0 → x.slot = none → (low.slip a).axis a =
          { x with
            pulse := false, slipDue := false, positionValid := false, passage := none, fault := some .slip
            state := .stopping, stop := some { kind := .emergency, cause := .slip }, lastAction := .decelerate
            speedRemainder := if x.lastAction = .accelerate then 0 else x.speedRemainder
            burst := x.burst.map fun b => { b with ends := .none } })) ∧
      (x.burst = none → s.stepAxis a = s) ∧
      ∀ b : Burst, x.burst = some b →
        let ended (y : Axis) : Prop :=
          let t := s.stepAxis a
          (b.ends = .none → t = s.modAxis a fun _ => { y with burst := none }) ∧
          (b.ends = .arrive →
            t.axis a = { y with velocity := 0, stepAccumulator := 0, speedRemainder := 0, lastAction := .none,
                                state := .idle, burst := none } ∧
            t.ports = (s.report .axisArrived (some (.axis a.val)) (some y.position)
              (some (boolCode x.clamped))).ports ∧
            t.axes.counters = { s.axes.counters with
              arrivals := sat32 s.axes.counters.arrivals
              clamped := if x.clamped then sat32 s.axes.counters.clamped else s.axes.counters.clamped } ∧
            t.todo.reeval = true ∧ t.todo.test[a] = true ∧
            ∀ p : PlayerId, (t.player p).awaitOver =
              ((s.player p).awaitOver || ((s.player p).awaits a && !y.slotOf p))) ∧
          (b.ends = .complete → x.positionValid = true → ∀ k : Stop, x.stop = some k →
            t.axis a = { y with velocity := 0, stepAccumulator := 0, speedRemainder := 0, lastAction := .none,
                                state := .idle, stop := none, burst := none } ∧
            t.ports = (s.report .axisStopped (some (.axis a.val)) (some y.position) (some k.cause.code)).ports ∧
            t.axes.counters = { s.axes.counters with stops := sat32 s.axes.counters.stops } ∧
            t.todo.reeval = true ∧ t.todo.test[a] = true) ∧
          (b.ends = .complete → x.positionValid = false → x.slot = none → ∀ k : Stop, x.stop = some k →
            t.axis a = { y with velocity := 0, stepAccumulator := 0, speedRemainder := 0, lastAction := .none,
                                state := .unhomed, stop := none, burst := none } ∧
            t.ports = (s.report .axisStopped (some (.axis a.val)) none (some k.cause.code)).ports ∧
            t.axes.counters = { s.axes.counters with stops := sat32 s.axes.counters.stops }) ∧
          (b.ends = .limit → x.slot = none →
            t.axis a = { y with velocity := 0, stop := none, burst := none, state := .faulted,
                                positionValid := false, fault := some .limit } ∧
            t.ports = (s.report .axisFault (some (.axis a.val)) (some FaultReason.limit.code)
              (some y.position)).ports ∧
            t.axes.counters = { s.axes.counters with limitFaults := sat32 s.axes.counters.limitFaults } ∧
            t.todo.reeval = true)
        (b.total ≤ b.issued → x.slipDue = true → s.stepAxis a = s) ∧
        (b.total ≤ b.issued → x.slipDue = false → ended x) ∧
        (b.issued < b.total → s.time.motionPhase < b.issued * 100 / b.spacing → s.stepAxis a = s) ∧
        (b.issued < b.total → b.issued * 100 / b.spacing ≤ s.time.motionPhase → x.slipDue = false →
          let begun : Axis := { x with pulse := true, burst := some { b with issued := b.issued + 1 } }
          let near (z : Int) : Prop := x.config.home - x.config.slipTolerance ≤ z ∧ z ≤ x.config.home + x.config.slipTolerance
          let up : Bool := x.direction == .positive
          let z : Int := if up then x.position + 1 else x.position - 1
          let moved : Axis := { begun with position := z, lastStep := some (x.position, z) }
          let stepped (y : Axis) : Prop :=
            (b.issued + 1 < b.total ∨ y.slipDue = true → s.stepAxis a = s.modAxis a fun _ => y) ∧
            (b.total = b.issued + 1 → y.slipDue = false → ended y)
          (x.state = .homing → ∀ h : Homing, x.homing = some h →
            stepped { begun with homing := some { h with travel := h.travel + 1 } }) ∧
          (x.state ≠ .homing → x.positionValid = false → stepped moved) ∧
          (x.state ≠ .homing → x.positionValid = true →
            (x.passage = none →
              (near z → stepped { moved with passage := some { side := if up then .low else .high, edgeSeen := false } }) ∧
              (¬ near z → stepped moved)) ∧
            ∀ q : Passage, x.passage = some q →
              let leftBack := if q.side = .low then z < x.config.home - x.config.slipTolerance
                else ¬ z < x.config.home - x.config.slipTolerance
              (near z → stepped moved) ∧
              (¬ near z → (leftBack ∨ q.edgeSeen = true) → stepped { moved with passage := none }) ∧
              (¬ near z → ¬ leftBack → q.edgeSeen = false → stepped { moved with slipDue := true })))

/-- The values after a backup reset, which comes with a main reset (R18, R19): the clock, its validity, slew, stamps and
restraints; stage time, the freeze record and the oscillator. From first power on the clock runs at once: it reads 16 ms at
the end of the stabilisation interval, and the end of stabilisation tells the venue port CLOCK_LOST. -/
def Obligations.ResetSetsTheTimebase : Prop :=
  wallFields State.reset.backup.wallMs =
      { date := { year := 2000, month := 1, day := 1 }, hour := 0, minute := 0, second := 0, millisecond := 0 } ∧
  weekdayOfDay (State.reset.backup.wallMs / 86400000) = 5 ∧
  State.reset.backup.validity = .invalid ∧ State.reset.backup.slewRemainder = 0 ∧
  (∀ k : CalId, State.reset.backup.stamps[k] = none) ∧
  State.reset.backup.ceiling = 127 ∧ State.reset.backup.mute = false ∧
  State.reset.time.stageTime = 0 ∧ State.reset.time.frozen = false ∧ State.reset.time.freezeStage = 0 ∧
  State.reset.time.frozenMs = 0 ∧ State.reset.time.osc = .stabilising ∧
  (∀ s : State, Quiet s →
    ∃ t, exec .backupReset s = .next t ∧ t.backup = State.reset.backup ∧ t.time = State.reset.time) ∧
  let u := Nat.repeat tick 1600 State.reset
  u.backup.wallMs = 16 ∧ ∃ t, exec .stabilisationEnd u = .next t ∧
    (t.port .venue).queue =
      [{ kind := .clockLost, wall := none, stage := 0, subject := none, detail1 := some 1, detail2 := none }]

/-! ### Laws that every step keeps -/

/-- The state after reset meets every law of the whole machine. -/
def Obligations.ResetMeetsTheLaws : Prop :=
  ArrayCanonical State.reset ∧ QueuesLawful State.reset ∧ FifoLaw State.reset ∧
  StrikesConserved State.reset ∧ HaltedLaw State.reset ∧ SlotLaw State.reset ∧ PagesLaw State.reset

/-- Every step keeps the canonical form of the listed cells of the non-volatile array. -/
def Obligations.EveryStepKeepsTheArrayCanonical : Prop :=
  ∀ s t : State, ArrayCanonical s → step s = .next t → ArrayCanonical t

/-- Every step keeps the queues lawful: within their capacity of 8 starts, 32 strikes and 16 events at each port, the starts
by priority and the strikes by launch time, bell and enqueue number (R36, R79, R191). -/
def Obligations.EveryStepKeepsTheQueuesLawful : Prop :=
  ∀ s t : State, QueuesLawful s → step s = .next t → QueuesLawful t

/-- Every step keeps the law of the FIFO (R69): at most 16 cues in a FIFO and 4 entries on a loop stack; and a channel with
a read asked for or in flight holds at most 8 cues (R66) and is neither in WAITING_STORE (R67) nor AT_END (R72). -/
def Obligations.EveryStepKeepsTheFifoLaw : Prop :=
  ∀ s t : State, FifoLaw s → step s = .next t → FifoLaw t

/-- Every step keeps the law of strike conservation (R103): strikes enqueued are those launched, muted, late or flushed,
and those in the queue. -/
def Obligations.EveryStepConservesStrikes : Prop :=
  ∀ s t : State, StrikesConserved s → step s = .next t → StrikesConserved t

/-- Every step keeps the law of the halted stage (R153); and a step from HALTED to HALTED starts no move and no homing. -/
def Obligations.EveryStepKeepsTheHaltedLaw : Prop :=
  ∀ s t : State, step s = .next t →
    (HaltedLaw s → HaltedLaw t) ∧
    (s.stage.mode = .halted → t.stage.mode = .halted → ∀ a : AxisId,
      ((t.axis a).state = .moving → (s.axis a).state = .moving) ∧
      ((t.axis a).state = .homing → (s.axis a).state = .homing))

/-- Every step keeps the law of drive slots (R107), so no more bells are DRIVING than there are slots; and a bell that a step
brings to DRIVING was at REST, with mute off and FROZEN clear (R91, R92). -/
def Obligations.EveryStepKeepsTheDriveSlotLaw : Prop :=
  (∀ s : State, SlotLaw s → (allBells.filter s.driving).length ≤ s.hammer.slots.length) ∧
  ∀ s t : State, step s = .next t →
    (SlotLaw s → SlotLaw t) ∧
    ∀ b : BellId, s.driving b = false → t.driving b = true →
      s.atRest b = true ∧ s.backup.mute = false ∧ s.time.frozen = false

/-- Every step keeps the first half of the law of owned pages (R161): no page that a LIVE or RETIRING version owns is erased,
programmed or spoiled. It follows from R167 and R168, which refuse such pages. The law's second half, that a fetch channel
reads only pages of the version its player pinned, is not stated here. -/
def Obligations.EveryStepKeepsOwnedPages : Prop :=
  ∀ s t : State, PagesLaw s → step s = .next t →
    PagesLaw t ∧ ∀ a : Nat, s.owned (a / 512) = true → t.store.nvm.byte a = s.store.nvm.byte a

/-! ### Frames (R184, R196) -/

/-- A well-formed request's frame is at most 74 bytes, and the port reads the request back from it, every field of it. -/
def Obligations.RequestFramesDecode : Prop :=
  ∀ (i : Instr) (p : PortId) (c : Nat) (b : List Byte), i.wellFormed = true → requestParts? i = some (p, c, b) →
    (frameBytes c b).length ≤ 74 ∧ frameOf? i = some (frameBytes c b) ∧ requestOfFrame? p (frameBytes c b) = some i

/-- Bytes that a port reads as a request are the frame of that request, which is well formed: a code, the payload's
length, and the payload. -/
def Obligations.DecodedFramesEncode : Prop :=
  ∀ (p : PortId) (frame : List Byte) (i : Instr), requestOfFrame? p frame = some i →
    i.wellFormed = true ∧ frameOf? i = some (frame.take 74) ∧ ∃ c b, requestParts? i = some (p, c, b)

/-! ### The checks common to all requests (R185, R186) -/

/-- The checks common to all requests, in their order (R185). A write that is no well-formed frame is answered
BAD_FRAME: it counts as a request taken and as a bad frame. During LOADING every request but GET_STATUS is answered
NOT_READY, from any port; once READY, a request from a port that the catalogue does not permit is answered DENIED.
None changes anything but its port. (That a command which is not well formed, so that no frame spells it, passes the
same checks is the model's choice, log 1.) (The request slot keeps the frame of the request: the model's choice, log
33.) -/
def Obligations.CommonChecksRefuseInOrder : Prop :=
  (∀ (p : PortId) (frame : List Byte) (s : State), Quiet s → Takes s p → frame ≠ [] → requestOfFrame? p frame = none →
    exec (.badFrame p frame) s = .next (s.modPort p fun c =>
      { c with request := frame.take 74, response := { status := .done, result := .badFrame, data := [] }, state := .idle,
               counters := { c.counters with requests := sat32 c.counters.requests
                                             badFrames := sat32 c.counters.badFrames } })) ∧
  ∀ (i : Instr) (p : PortId) (c : Nat) (b : List Byte) (s : State), requestParts? i = some (p, c, b) →
    (c ≠ 1 → Quiet s → Takes s p → s.store.ready = false → exec i s = .next (s.answer p i .notReady)) ∧
    (Accepts s p → permitted c p = false → exec i s = .next (s.answer p i .denied))

/-- A write with data to a BUSY port, a request, a malformed frame or an overrun as such, raises the overruns counter and
changes nothing else (R186). A port that does not acknowledge its address, during stabilisation or before LOADING's first
step, takes no write and no read (R5, R183). -/
def Obligations.BusyAndAbsentPortsTakeNothing : Prop :=
  ∀ (i : Instr) (p : PortId) (s : State), Quiet s →
    (s.listens p = true → (s.port p).state = .busy →
      ((∃ c b, requestParts? i = some (p, c, b)) ∨ i = .overrun p ∨
        (∃ f, i = .badFrame p f ∧ f ≠ [] ∧ requestOfFrame? p f = none)) →
      exec i s = .next (s.modPort p fun c =>
        { c with counters := { c.counters with overruns := sat32 c.counters.overruns } })) ∧
    (s.listens p = true → (s.port p).state ≠ .busy → i = .overrun p → exec i s = .next s) ∧
    (s.listens p = false →
      ((∃ c b, requestParts? i = some (p, c, b)) ∨ i = .overrun p ∨ i = .clockHold p ∨ i = .clockHoldLimit p ∨
        (∃ f, i = .badFrame p f)) →
      exec i s = .next s)

/-- A read transaction returns the response slot at once, unless the port is BUSY with clock-hold on, where the clock is
held (R187, R188). A hold that has lasted 25 ms ends with what the slot then holds. Nothing else changes. A byte read beyond the end of the
data is 0xFF, however long the master reads (R187). The bytes of the slot are its status, its result code, the length of its
data, and the data, the codes in the order of R185's and R187's lists (R195, R196). -/
def Obligations.ReadTransactionsAndHolds : Prop :=
  (∀ r : Response, reads r.bytes ([.code [.pending, .done] r.status,
      .code [.ok, .accepted, .denied, .badFrame, .badArg, .mode, .busy, .full, .notFound, .claimed, .unavailable, .pinned,
        .isProtected, .notErased, .notReady] r.result,
      .num 2 r.data.length] ++ r.data.map fun b => .num 1 b.toNat)) ∧
  ∀ (p : PortId) (s : State), Quiet s → s.listens p = true →
    (¬ ((s.port p).state = .busy ∧ (s.port p).clockHold = true) →
      exec (.clockHold p) s = .next (s.modPort p fun c => { c with lastRead := c.response.bytes })) ∧
    ((s.port p).state = .busy → (s.port p).clockHold = true → (s.port p).hold = none →
      exec (.clockHold p) s = .next (s.modPort p fun c => { c with hold := some 0 })) ∧
    (∀ k, (s.port p).hold = some k → 2500 ≤ k →
      exec (.clockHoldLimit p) s = .next (s.modPort p fun c => { c with hold := none, lastRead := c.response.bytes })) ∧
    (∀ k, (s.port p).hold = some k → k < 2500 → exec (.clockHoldLimit p) s = .next s) ∧
    (¬ ((s.port p).state = .busy ∧ (s.port p).clockHold = true) →
      ∃ t, exec (.clockHold p) s = .next t ∧
        (∀ (k : Nat) (b : Byte), (s.port p).response.bytes[k]? = some b → (t.port p).readByte k = b) ∧
        ∀ k : Nat, (s.port p).response.bytes.length ≤ k → (t.port p).readByte k = 0xFF#8)

/-- An event takes the stage time and, while the clock is VALID, the wall time (R190). Each port whose routing includes
its class appends the record; a queue that holds 16 discards it, with LOST set and the discard counted (R191). Nothing
else changes. -/
def Obligations.ReportsReachRoutedPorts : Prop :=
  ∀ (s : State) (k : EventKind) (x : Option Subject) (d e : Option Int),
    let r : EventRecord :=
      { kind := k, wall := if s.backup.validity = .valid then some s.backup.wallMs else none, stage := s.time.stageTime,
        subject := x, detail1 := d, detail2 := e }
    (∀ p : PortId, (s.report k x d e).port p =
      if (s.port p).routing.getLsbD k.class.code then
        if (s.port p).queue.length < 16 then { s.port p with queue := (s.port p).queue ++ [r] }
        else { s.port p with
          lost := true
          counters := { (s.port p).counters with discarded := sat32 (s.port p).counters.discarded } }
      else s.port p) ∧
    s.report k x d e = { s with ports := (s.report k x d e).ports }

/-! ### Requests of any port (R16, R35, R62, R104, R121, R125, R144, R151, R169, R170, R189 to R193) -/

/-- GET_STATUS answers OK with the status as it stands, during LOADING too, and clears this port's LOST (R189).
NEXT_EVENT gives the oldest record with what remains and LOST, or NOT_FOUND with a count of 0 and LOST (R191).
SET_ROUTING replaces this port's mask (R190). (The request slot keeps the frame of the request: the model's choice,
log 33.)

The status is the items of R189 in their order, with the last operation of R182, coded by R195: that the erase time
remaining has no presence byte and is 0 while there is none, and whether it is rounded up (free), are log 9's, and the bytes of the
last operation's subject log 13's. A record is that of R196 with its extension. Numbers, flags and signed numbers are coded by R195;
the bytes of a number too wide for its field are free (log 7). -/
def Obligations.StatusEventsAndRouting : Prop :=
  (∀ (k n : Nat) (z : Int) (b : Bool), reads (num k n) [.num k n] ∧ reads (u8 n) [.num 1 n] ∧
    reads (twos k z) [.signed k z] ∧ flag b = [if b then 1#8 else 0#8]) ∧
  (∀ r : EventRecord, reads r.bytes (eventItems r)) ∧
  (∀ (p : PortId) (s : State),
    ∃ ms : Nat, reads (s.statusBytes p) (statusItems s p ms) ∧
      (s.store.array = .idle → ms = 0) ∧ ∀ n : Nat,
        (s.store.array = .programming n → ms = 0) ∧
        (s.store.array = .erasing n ∨ s.store.array = .suspended n →
          ms = n / 100 ∨ (n % 100 ≠ 0 ∧ ms = n / 100 + 1))) ∧
  ∀ (p : PortId) (s : State),
    (Quiet s → Takes s p →
      exec (.getStatus p) s =
        .next ((s.answer p (.getStatus p) .ok (s.statusBytes p)).modPort p fun c => { c with lost := false })) ∧
    (Accepts s p →
      ((s.port p).queue = [] →
        exec (.nextEvent p) s = .next (s.answer p (.nextEvent p) .notFound ([0#8] ++ flag (s.port p).lost))) ∧
      (∀ r q, (s.port p).queue = r :: q →
        exec (.nextEvent p) s =
          .next ((s.answer p (.nextEvent p) .ok (r.bytes ++ u8 q.length ++ flag (s.port p).lost)).modPort p
            fun c => { c with queue := q })) ∧
      ∀ m : Byte, exec (.setRouting p m) s =
        .next ((s.answer p (.setRouting p m) .ok [m]).modPort p fun c => { c with routing := m }))

/-- The readouts of the clock (R16), of the start queue (R62), of the strike queue with its rolls (R104) and of the
counters (R193) answer OK at once with what they read, READ_COUNTERS with this request in its port's own count, and
change nothing else. A queue byte of no queue and a group of no counters are answered BAD_ARG; so is the queue byte of
the strike queue in the command that names the start queue, which no frame spells (the model's choice, log 1). (The
request slot keeps the frame of the request: the model's choice, log 33.)

What they read is each rule's items in their order, coded by R195 (R16; R36 and R62; R79, R95 and R104; the counters of R34, R61,
R103, R121, R144, R160, R182 and R183): where the rules leave the layout open it is log 13's (the code of the oscillator, an owner of
none, the bytes of a FREE roll slot), and the bytes of a number too wide for its field are free (log 7). A wall time is the date
and the time of day of its millisecond count (R7). -/
def Obligations.ClockQueueAndCounterReadouts : Prop :=
  (∀ s : State, reads s.clockBytes (clockItems s) ∧ reads s.startQueueBytes (startQueueItems s) ∧
    reads s.strikeQueueBytes (strikeQueueItems s) ∧
    ∀ g : Nat, g ≤ 7 → ∃ d, s.counterBytes g = some d ∧ reads d (counterItems s g)) ∧
  (∀ ms : Nat, ms < 3155760000000 →
    let w := wallFields ms
    let years := w.date.year - 2000
    let days (month : Nat) : Nat :=
      if month = 2 then (if w.date.year % 4 = 0 then 29 else 28)
      else if month = 4 ∨ month = 6 ∨ month = 9 ∨ month = 11 then 30 else 31
    w.millisecond = ms % 1000 ∧ w.second = ms / 1000 % 60 ∧ w.minute = ms / 60000 % 60 ∧ w.hour = ms / 3600000 % 24 ∧
    2000 ≤ w.date.year ∧ w.date.year ≤ 2099 ∧ 1 ≤ w.date.month ∧ w.date.month ≤ 12 ∧ 1 ≤ w.date.day ∧
    w.date.day ≤ days w.date.month ∧
    years * 365 + (years + 3) / 4 + ((List.range (w.date.month - 1)).map fun m => days (m + 1)).sum + (w.date.day - 1) =
      ms / 86400000) ∧
  ∀ (p : PortId) (s : State), Accepts s p →
    exec (.readClock p) s = .next (s.answer p (.readClock p) .ok s.clockBytes) ∧
    exec (.readQueueStart p 0#8) s = .next (s.answer p (.readQueueStart p 0#8) .ok s.startQueueBytes) ∧
    (∀ q : Byte, q ≠ 0#8 →
      exec (.readQueueStart p q) s = .next (s.answer p (.readQueueStart p q) .badArg)) ∧
    exec (.readQueueStrike p) s = .next (s.answer p (.readQueueStrike p) .ok s.strikeQueueBytes) ∧
    ∀ g : Byte,
      (7 < g.toNat → exec (.readCounters p g) s = .next (s.answer p (.readCounters p g) .badArg)) ∧
      (g.toNat ≤ 7 → ∃ d, (s.answer p (.readCounters p g) .ok).counterBytes g.toNat = some d ∧
        exec (.readCounters p g) s = .next (s.answer p (.readCounters p g) .ok d))

/-- The readouts that name an object by number answer OK with its record when the number is in range, else BAD_ARG,
and change nothing else: players 0 to 2, bells 0 to 23, axes 0 to 7, calendar entries 0 to 63, season, profile and
interlock entries 0 to 15, programmes 1 to 64. A table byte of no table is answered BAD_ARG; so is, in the command
that names the calendar, the table byte of another table, which no frame spells (the model's choice, log 1). (The
request slot keeps the frame of the request: the model's choice, log 33.)

Each record is its rules' items in their order, coded by R195 (R46, R62 and R76; R77, R104 and R121; R122, R123, R126 and R144; R20
and R35; R22 and R35; R125; R145, R146 and R151; R170): where the rules leave the layout open it is log 13's, the address of a
channel at no cue is log 22's, the code of an enumeration that a stored page did not name is log 11's, and the bytes of a number too
wide for its field are free (log 7). -/
def Obligations.NumberedReadouts : Prop :=
  (∀ s : State,
    (∀ p : PlayerId, reads (s.playerBytes p) (playerItems s p)) ∧ (∀ b : BellId, reads (s.bellBytes b) (bellItems s b)) ∧
    (∀ a : AxisId, reads (s.axisReadBytes a) (axisItems s a)) ∧
    (∀ k : CalId, reads (s.calendarBytes k) (calendarItems s k)) ∧
    (∀ k : SeasonId, reads (s.seasonReadBytes k) (seasonItems s k)) ∧
    (∀ x : Profile, reads (profileBytes x) (profileItems x)) ∧
    (∀ k : InterlockId, reads (s.interlockReadBytes k) (interlockItems s k)) ∧
    ∀ g : ProgId, reads (s.directoryBytes g) (directoryItems s g)) ∧
  ∀ (p : PortId) (n : Byte) (s : State), Accepts s p →
    exec (.readPlayer p n) s =
      .next (if h : n.toNat < 3 then s.answer p (.readPlayer p n) .ok (s.playerBytes ⟨n.toNat, h⟩)
             else s.answer p (.readPlayer p n) .badArg) ∧
    exec (.readBell p n) s =
      .next (if h : n.toNat < 24 then s.answer p (.readBell p n) .ok (s.bellBytes ⟨n.toNat, h⟩)
             else s.answer p (.readBell p n) .badArg) ∧
    exec (.readAxis p n) s =
      .next (if h : n.toNat < 8 then s.answer p (.readAxis p n) .ok (s.axisReadBytes ⟨n.toNat, h⟩)
             else s.answer p (.readAxis p n) .badArg) ∧
    exec (.readEntryCalendar p 0#8 n) s =
      .next (if h : n.toNat < 64 then s.answer p (.readEntryCalendar p 0#8 n) .ok (s.calendarBytes ⟨n.toNat, h⟩)
             else s.answer p (.readEntryCalendar p 0#8 n) .badArg) ∧
    (∀ t : Byte, t ≠ 0#8 → exec (.readEntryCalendar p t n) s = .next (s.answer p (.readEntryCalendar p t n) .badArg)) ∧
    exec (.readEntrySeason p n) s =
      .next (if h : n.toNat < 16 then s.answer p (.readEntrySeason p n) .ok (s.seasonReadBytes ⟨n.toNat, h⟩)
             else s.answer p (.readEntrySeason p n) .badArg) ∧
    exec (.readEntryProfile p n) s =
      .next (if h : n.toNat < 16 then s.answer p (.readEntryProfile p n) .ok (profileBytes s.axes.profiles[n.toNat])
             else s.answer p (.readEntryProfile p n) .badArg) ∧
    exec (.readEntryInterlock p n) s =
      .next (if h : n.toNat < 16 then s.answer p (.readEntryInterlock p n) .ok (s.interlockReadBytes ⟨n.toNat, h⟩)
             else s.answer p (.readEntryInterlock p n) .badArg) ∧
    exec (.readEntryDirectory p n) s =
      .next (if h : 1 ≤ n.toNat ∧ n.toNat ≤ 64 then
               s.answer p (.readEntryDirectory p n) .ok (s.directoryBytes ⟨n.toNat - 1, by omega⟩)
             else s.answer p (.readEntryDirectory p n) .badArg)

/-- READ_STORE (R169): STAGE and MAP answer OK at once from the state as it stands. PAGE leaves the response PENDING
and the port BUSY, and queues the read behind those queued before it, at one instant in the order venue, programme,
service (R164). Arguments out of range, or a form byte of no form, are answered BAD_ARG; so is a form byte of another
form in the command of one form, which no frame spells (the model's choice, log 1). Nothing else changes. (The request
slot keeps the frame of the request: the model's choice, log 33.) STAGE gives the bytes of the staging buffer from its
offset on, and MAP the states of the page map from its page on, in one byte each (R161, R169, R195). -/
def Obligations.StoreReadouts : Prop :=
  (∀ (s : State) (o n : Nat), o + n ≤ 512 → s.stageBytes o n = (s.store.staging.toList.drop o).take n) ∧
  (∀ (s : State) (g n : Nat), 8 ≤ g → g + n ≤ 512 →
    reads (s.mapBytes g n) (((s.store.map.toList.drop (g - 8)).take n).map (.code [.free, .dirty, .draft, .live, .retiring]))) ∧
  ∀ (p : PortId) (o g : Half) (n : Byte) (s : State), Accepts s p →
    exec (.readStoreStage p 1#8 o n) s =
      .next (if o.toNat ≤ 511 ∧ 1 ≤ n.toNat ∧ n.toNat ≤ 64 ∧ o.toNat + n.toNat ≤ 512 then
               s.answer p (.readStoreStage p 1#8 o n) .ok (s.stageBytes o.toNat n.toNat)
             else s.answer p (.readStoreStage p 1#8 o n) .badArg) ∧
    (∀ f : Byte, f ≠ 1#8 → exec (.readStoreStage p f o n) s = .next (s.answer p (.readStoreStage p f o n) .badArg)) ∧
    exec (.readStoreMap p g n) s =
      .next (if 8 ≤ g.toNat ∧ g.toNat ≤ 511 ∧ 1 ≤ n.toNat ∧ n.toNat ≤ 64 ∧ g.toNat + n.toNat ≤ 512 then
               s.answer p (.readStoreMap p g n) .ok (s.mapBytes g.toNat n.toNat)
             else s.answer p (.readStoreMap p g n) .badArg) ∧
    (∀ f : Byte, f ≠ 0#8 → exec (.readStorePage p f g o n) s = .next (s.answer p (.readStorePage p f g o n) .badArg)) ∧
    exec (.readStorePage p 0#8 g o n) s =
      .next (if g.toNat ≤ 511 ∧ o.toNat ≤ 511 ∧ 1 ≤ n.toNat ∧ n.toNat ≤ 64 ∧ o.toNat + n.toNat ≤ 512 then
               (s.modPort p fun c =>
                 { c with request := (frameOf? (.readStorePage p 0#8 g o n)).getD [], state := .busy,
                          response := { status := .pending, result := .ok, data := [] },
                          counters := { c.counters with requests := sat32 c.counters.requests } }).modStore fun t =>
                 { t with
                   portReads := placeRead { instant := s.time.hammerTime, port := p, page := g.toNat, offset := o.toNat,
                                            length := n.toNat } t.portReads }
             else s.answer p (.readStorePage p 0#8 g o n) .badArg)

/-! ### Requests of the venue -/

/-- SET_CLOCK with a field out of range is answered BAD_ARG; with the clock VALID and the difference within 2000 ms it
sets the slew remainder to the difference, begins the slew period afresh, and answers OK with path 0 and the
difference (R11, R12), whatever remainder an earlier slew has left (R13); with any other difference it steps the clock
(R14). An advance that the reading does not hold yet is abandoned with the earlier correction; at a difference of 0 it
is made as one ordinary millisecond, so that the clock runs on unchanged (the model's phase of the clock, log 3). (The
request slot keeps the frame of the request: the model's choice, log 33.) -/
def Obligations.SetClockSlews : Prop :=
  ∀ (time : WallPayload) (s : State), Accepts s .venue →
    (requestedWall? time = none →
      exec (.setClock .venue time) s = .next (s.answer .venue (.setClock .venue time) .badArg)) ∧
    (∀ w : Nat, requestedWall? time = some w → s.backup.validity = .valid →
      -2000 ≤ (w : Int) - s.backup.wallMs → (w : Int) - s.backup.wallMs ≤ 2000 →
      let ends := 0 < s.backup.boundaryAhead ∨ (s.backup.slewRemainder ≠ 0 ∧ 10000 ≤ s.backup.slewElapsed)
      let inMinute := (s.backup.wallMs + 1) / 60000 = s.backup.wallMs / 60000
      exec (.setClock .venue time) s =
        .next ((s.modBackup fun b =>
            { b with
              slewRemainder := (w : Int) - s.backup.wallMs, slewElapsed := 0
              wallMs := if w = s.backup.wallMs ∧ ends ∧ inMinute then w + 1 else s.backup.wallMs
              boundaryAhead := if w = s.backup.wallMs ∧ ends ∧ ¬ inMinute then 1 else 0
            }).answer .venue (.setClock .venue time) .ok ([0#8] ++ twos 4 ((w : Int) - s.backup.wallMs)))) ∧
    ∀ w : Nat, requestedWall? time = some w →
      (s.backup.validity = .invalid ∨ 2000 < ((w : Int) - s.backup.wallMs).natAbs) →
      ∃ t, exec (.setClock .venue time) s = .next t ∧ t.backup.wallMs = w ∧ t.backup.validity = .valid ∧
        t.backup.slewRemainder = 0

/-- SET_CLOCK on the step path (R14): the clock reads the requested time and is VALID, any slew is over, and the
response is OK with path 1 and the difference, clamped to two thousand million. Stage time, the restraints, the inputs
and the stored bytes are unchanged. TIME_STEPPED is reported and the season of the new date taken (R23); then the enabled calendar
entries are evaluated in ascending index at the requested time (R26), which makes the admission attempts of the starts they
bring (log 23), and with none enabled there is no more to the effect. That the new time begins a millisecond, with no minute boundary
pending, is the model's phase of the clock (log 3). (The request slot keeps the frame of the request: the model's
choice, log 33.) -/
def Obligations.SetClockSteps : Prop :=
  ∀ (time : WallPayload) (w : Nat) (s : State), Accepts s .venue → requestedWall? time = some w →
    (s.backup.validity = .invalid ∨ 2000 < ((w : Int) - s.backup.wallMs).natAbs) →
    let d : Int := max (-2000000000) (min ((w : Int) - s.backup.wallMs) 2000000000)
    (∃ t, exec (.setClock .venue time) s = .next t ∧
      t.backup = { s.backup with wallMs := w, validity := .valid, slewRemainder := 0, slewElapsed := 0, wallSub := 0,
                                 boundaryAhead := 0, stamps := t.backup.stamps } ∧
      (t.port .venue).response = { status := .done, result := .ok, data := [1#8] ++ twos 4 d } ∧
      t.time = s.time ∧ t.pins = s.pins ∧ t.store.nvm = s.store.nvm) ∧
    ((∀ k : CalId, (s.calendar.entries[k]).enabled = false) →
      exec (.setClock .venue time) s =
        .next (((((s.modBackup fun b => { b with wallMs := w, validity := .valid, slewRemainder := 0, slewElapsed := 0,
                                                  wallSub := 0, boundaryAhead := 0 }).report .timeStepped none (some d)
            (some s.backup.validity.code)).setSeason
              (seasonEntryOf s.calendar.seasons (wallFields w).date)).answer .venue (.setClock .venue time) .ok
            ([1#8] ++ twos 4 d)))) ∧
    let taken := s.modPort .venue fun c =>
      { c with request := (frameOf? (.setClock .venue time)).getD [], response := { status := .done, result := .ok, data := [] }
               counters := { c.counters with requests := sat32 c.counters.requests } }
    let stepped := ((taken.modBackup fun b =>
      { b with wallMs := w, validity := .valid, slewRemainder := 0, slewElapsed := 0, wallSub := 0
               boundaryAhead := 0 }).report .timeStepped none (some d) (some s.backup.validity.code)).setSeason
        (seasonEntryOf s.calendar.seasons (wallFields w).date)
    exec (.setClock .venue time) s =
      .next (((allCals.foldl (fun x k => x.evaluateEntry w k) stepped).modPort .venue fun c =>
        { c with response := { status := .done, result := .ok, data := [1#8] ++ twos 4 d }, state := .idle }).close)

/-- SET_RESTRAINT (R158): a mute byte that is no flag, or a ceiling of 0, is answered BAD_ARG. Otherwise both
restraints are replaced, a ceiling above 127 by 127, and the response carries both. When mute turns on, every due
strike leaves the queue, counted muted (R92; one that is late at that stage time too: the model's choice, log 34). RESTRAINT_CHANGED is reported when either differs from before. Nothing
else changes. (The request slot keeps the frame of the request: the model's choice, log 33.) -/
def Obligations.SetRestraintReplacesBoth : Prop :=
  ∀ (ceiling mute : Byte) (s : State), Accepts s .venue →
    (1 < mute.toNat ∨ ceiling.toNat = 0 →
      exec (.setRestraint .venue ceiling mute) s = .next (s.answer .venue (.setRestraint .venue ceiling mute) .badArg)) ∧
    (mute.toNat ≤ 1 → 1 ≤ ceiling.toNat →
      let c := min ceiling.toNat 127
      let m := mute == 1#8
      let u := (s.modBackup fun b => { b with ceiling := c, mute := m }).modStrikes fun k =>
        if m && !s.backup.mute then
          { k with
            queue := k.queue.filter fun e => decide (s.time.stageTime < e.launch)
            counters := { k.counters with
              muted := add48 k.counters.muted (k.queue.filter fun e => decide (e.launch ≤ s.time.stageTime)).length } }
        else k
      exec (.setRestraint .venue ceiling mute) s =
        .next ((if c = s.backup.ceiling ∧ m = s.backup.mute then u
                else u.report .restraintChanged none (some c) (some (boolCode m))).answer .venue
          (.setRestraint .venue ceiling mute) .ok (u8 c ++ flag m)))

/-- HALT from the venue and the HALT input enter HALTED (R152 to R154), which brings every moving axis to an EMERGENCY stop
with cause HALT and ends every homing (R137); that the steps left of the running motion tick are still issued, and no longer end
the motion, is the model's reading, which no rule says (log 4). MODE_CHANGED with its cause, START_FAILED for every queued start and
the reports of the freeze and the motion that end reach every port that is to have them (R38, R153, R159, R190). A HALT request is
answered OK, and in HALTED it changes nothing else. (The request slot keeps the frame of the request: the model's choice, log 33.) -/
def Obligations.HaltEntersHalted : Prop :=
  ∀ s : State,
    (Accepts s .venue → s.stage.mode = .halted →
      exec (.halt .venue) s = .next (s.answer .venue (.halt .venue) .ok)) ∧
    (Accepts s .venue → s.stage.mode ≠ .halted →
      ∃ t, exec (.halt .venue) s = .next t ∧ HaltedFrom s t .haltRequest ∧ t.pins = s.pins ∧
        (t.port .venue).response = { status := .done, result := .ok, data := [] }) ∧
    (Awake s → s.stage.mode ≠ .halted →
      ∃ t, exec (.haltInput true) s = .next t ∧ HaltedFrom s t .haltInput ∧ t.pins = { s.pins with haltIn := true }) ∧
    (Quiet s → exec (.haltInput false) s = .next { s with pins := { s.pins with haltIn := false } }) ∧
    (Quiet s → s.running = false ∨ s.stage.mode = .halted →
      exec (.haltInput true) s = .next { s with pins := { s.pins with haltIn := true } })

/-- RESUME in HALTED with the HALT input deasserted sets the mode to AUTO, owes an admission attempt, and is answered
OK; otherwise it is answered MODE and changes nothing else (R154). With no move held, MODE_CHANGED is all that happens
besides. (The request slot keeps the frame of the request: the model's choice, log 33.) -/
def Obligations.ResumeReturnsToAuto : Prop :=
  ∀ s : State, Accepts s .venue →
    ((s.stage.mode ≠ .halted ∨ s.pins.haltIn = true) →
      exec (.resume .venue) s = .next (s.answer .venue (.resume .venue) .mode)) ∧
    (s.stage.mode = .halted → s.pins.haltIn = false →
      (∃ t, exec (.resume .venue) s = .next t ∧ t.stage.mode = .auto ∧ t.todo.attempt = true ∧
        (t.port .venue).response = { status := .done, result := .ok, data := [] } ∧
        t.time = s.time ∧ t.backup = s.backup ∧ t.calendar = s.calendar ∧ t.strikes = s.strikes ∧ t.hammer = s.hammer ∧
        t.channels = s.channels ∧ t.store = s.store ∧ t.pins = s.pins ∧ t.shows.queue = s.shows.queue) ∧
      ((∀ (a : AxisId) (m : PendingMove), (s.axis a).slot = some m → m.held = none) →
        exec (.resume .venue) s =
          .next ((((s.modStage fun g => { g with mode := .auto }).report .modeChanged none (some (StageMode.code .auto))
            (some (ModeCause.code .resume))).oweAttempt).answer .venue (.resume .venue) .ok)))

/-- START_SHOW (R37, R39): the refusals in their order, each changing nothing but its answer and, for FULL, the
refused count; and an arrival: the entry with its expiry is placed behind every entry of equal or higher priority, an
admission attempt is owed, and the response gives the entries queued just after. (The request slot keeps the frame of
the request: the model's choice, log 33.) -/
def Obligations.StartShowQueuesTheStart : Prop :=
  ∀ (p : PortId) (programme priority : Byte) (s : State), Accepts s p → p ≠ .programme →
    let i := Instr.startShow p programme priority
    ((programme.toNat = 0 ∨ 64 < programme.toNat ∨ (7 < priority.toNat ∧ priority ≠ 0xFF#8)) →
      exec i s = .next (s.answer p i .badArg)) ∧
    (∀ g : ProgId, programme.toNat = g.number → (priority.toNat ≤ 7 ∨ priority = 0xFF#8) →
      (((p = .venue ∧ s.stage.mode ≠ .auto) ∨ (p = .service ∧ s.stage.mode ≠ .manual)) →
        exec i s = .next (s.answer p i .mode)) ∧
      (((p = .venue ∧ s.stage.mode = .auto) ∨ (p = .service ∧ s.stage.mode = .manual)) →
        (s.live? g = none → exec i s = .next (s.answer p i .notFound)) ∧
        ∀ v : Version, s.live? g = some v →
          (8 ≤ s.shows.queue.length →
            exec i s = .next ((s.countShow fun c => { c with refusedFull := sat32 c.refusedFull }).answer p i .full)) ∧
          (s.shows.queue.length < 8 →
            let e : StartEntry :=
              { programme := g, priority := if priority = 0xFF#8 then v.priority else priority.toNat,
                source := if p = .service then .service else .venue, stamp := none, arrival := s.time.stageTime,
                expiry := s.time.stageTime + v.latestStart * 100000 }
            exec i s = .next ((((s.modShows fun b =>
              { b with
                queue := b.queue.takeWhile (fun x => decide (e.priority ≤ x.priority)) ++ e ::
                  b.queue.dropWhile (fun x => decide (e.priority ≤ x.priority))
                counters := { b.counters with arrivals := sat32 b.counters.arrivals } }).oweAttempt).answer p i
              .accepted (u8 (s.shows.queue.length + 1)))))))

/-- STOP_SHOW (R58): BAD_ARG for no player, NOT_FOUND for an IDLE one, OK for a DRAINING one with nothing changed. A
player that is PRIMING, RUNNING or WAITING is aborted (R57): it is DRAINING with outcome STOPPED, its channel has
stopped and its FIFO is empty, none of its strikes is queued and none of its rolls ACTIVE, and no pending move of its
is left; each of its claimed axes that is MOVING is STOPPING by a controlled stop with the cause of an abort, or at
rest at once where its move has not yet run a tick (R57, R131); that the steps left of its motion tick are still issued,
and no longer end its motion, is the model's reading (log 4). (The request slot keeps the frame of the request: the
model's choice, log 33.) -/
def Obligations.StopShowAborts : Prop :=
  ∀ (p : PortId) (n : Byte) (s : State), Accepts s p → p ≠ .programme →
    let i := Instr.stopShow p n
    (2 < n.toNat → exec i s = .next (s.answer p i .badArg)) ∧
    ∀ q : PlayerId, n.toNat = q.val →
      ((s.player q).state = .idle → exec i s = .next (s.answer p i .notFound)) ∧
      ((s.player q).state = .draining → exec i s = .next (s.answer p i .ok)) ∧
      ((s.player q).playing = true →
        ∃ t, exec i s = .next t ∧
          (t.port p).response = { status := .done, result := .ok, data := [] } ∧
          (t.player q).state = .draining ∧ (t.player q).outcome = some .stopped ∧
          (t.player q).programme = (s.player q).programme ∧ (t.player q).counters = (s.player q).counters ∧
          (t.channel q).state = .idle ∧ (t.channel q).fifo = [] ∧ (t.channel q).loops = [] ∧
          t.strikes.queue = s.strikes.queue.filter (fun e => e.owner != some q) ∧
          (∀ r : RollId, t.roll r = if (s.roll r).any (fun x => x.owner == q) then none else s.roll r) ∧
          (∀ a : AxisId, (t.axis a).slotOf q = false ∧ (t.axis a).claim = (s.axis a).claim ∧
            (t.axis a).config = (s.axis a).config ∧
            ((s.axis a).claim = some q → (s.axis a).state = .moving → (s.axis a).velocity ≠ 0 →
              t.axis a = { s.axis a with
                state := .stopping, stop := some { kind := .controlled, cause := .abort }, lastAction := .decelerate,
                speedRemainder := if (s.axis a).lastAction = .accelerate then 0 else (s.axis a).speedRemainder,
                burst := (s.axis a).burst.map fun b => { b with ends := .none },
                slot := if (s.axis a).slotOf q then none else (s.axis a).slot }) ∧
            ((s.axis a).claim = some q → (s.axis a).state = .moving → (s.axis a).velocity = 0 →
              ((s.axis a).slot = none ∨ (s.axis a).slotOf q = true) →
              t.axis a = { s.axis a with
                state := if (s.axis a).positionValid then .idle else .unhomed, stop := none, lastAction := .none,
                stepAccumulator := 0, speedRemainder := 0, burst := none, slot := none })) ∧
          t.time = s.time ∧ t.backup = s.backup ∧ t.calendar = s.calendar ∧ t.hammer = s.hammer ∧ t.pins = s.pins ∧
          t.shows.queue = s.shows.queue ∧ t.stage.mode = s.stage.mode ∧ t.store.nvm = s.store.nvm ∧
          t.store.dir = s.store.dir)

/-! ### Requests of the content station -/

/-- ERASE_PAGE and WRITE_PAGE (R167, R168): the refusals in their order, each changing nothing but its answer, and the
taking of a request that passes. (The request slot keeps the frame of the request: the model's choice, log 33.) -/
def Obligations.PageRequestsAreChecked : Prop :=
  ∀ (n : Half) (s : State), Accepts s .programme →
    ∀ (i : Instr) (b : OpBody) (k : PhaseKind),
      ((i = .erasePage .programme n ∧ b = .erasePage n.toNat ∧ k = .erase) ∨
       (i = .writePage .programme n ∧ b = .writePage n.toNat ∧ k = .program)) →
      (511 < n.toNat → exec i s = .next (s.answer .programme i .badArg)) ∧
      (n.toNat ≤ 511 → s.store.op ≠ none → exec i s = .next (s.answer .programme i .busy)) ∧
      (n.toNat ≤ 511 → s.store.op = none →
        ((n.toNat < 8 ∨ s.store.setup.protection.getLsbD (n.toNat / 32) = true) →
          exec i s = .next (s.answer .programme i .isProtected)) ∧
        (8 ≤ n.toNat → s.store.setup.protection.getLsbD (n.toNat / 32) = false →
          ((s.pageState n.toNat = some .live ∨ s.pageState n.toNat = some .retiring) →
            exec i s = .next (s.answer .programme i .pinned)) ∧
          ((s.pageState n.toNat = some .dirty ∨ s.pageState n.toNat = some .draft) → k = .program →
            exec i s = .next (s.answer .programme i .notErased)) ∧
          ((s.pageState n.toNat = some .free ∨
              (k = .erase ∧ (s.pageState n.toNat = some .dirty ∨ s.pageState n.toNat = some .draft))) →
            ∃ t, exec i s = .next t ∧ OperationBegun s t .programme b k ∧ t.store.map = s.store.map ∧
              t.store.dir = s.store.dir)))

/-- CLEAR_STAGE fills the staging buffer with 0xFF, and LOAD_STAGE writes its bytes from the offset on and no others;
both are refused BUSY while a WRITE_PAGE is in progress, and LOAD_STAGE with BAD_ARG when its span leaves the buffer
(R166). Nothing else changes. (That a LOAD_STAGE of no byte or of more than 64, which no frame spells, is treated
alike is the model's choice, log 1.) (The request slot keeps the frame of the request: the model's choice, log 33.) -/
def Obligations.StagingRequestsWriteTheBuffer : Prop :=
  ∀ (o : Half) (d : List Byte) (s : State), Accepts s .programme →
    ((∃ op, s.store.op = some op ∧ op.body.kind = .writePage) →
      exec (.clearStage .programme) s = .next (s.answer .programme (.clearStage .programme) .busy) ∧
      (o.toNat ≤ 511 → o.toNat + d.length ≤ 512 →
        exec (.loadStage .programme o d) s = .next (s.answer .programme (.loadStage .programme o d) .busy))) ∧
    ((511 < o.toNat ∨ 512 < o.toNat + d.length) →
      exec (.loadStage .programme o d) s = .next (s.answer .programme (.loadStage .programme o d) .badArg)) ∧
    ((∀ op, s.store.op = some op → op.body.kind ≠ .writePage) →
      exec (.clearStage .programme) s =
        .next ((s.modStore fun x => { x with staging := Vector.replicate 512 0xFF#8 }).answer .programme
          (.clearStage .programme) .ok) ∧
      (o.toNat ≤ 511 → o.toNat + d.length ≤ 512 →
        exec (.loadStage .programme o d) s =
          .next ((s.modStore fun x =>
            { x with staging := Vector.ofFn fun k : Fin 512 =>
                if o.toNat ≤ k.val ∧ k.val < o.toNat + d.length then d.getD (k.val - o.toNat) 0#8 else x.staging[k] }).answer
            .programme (.loadStage .programme o d) .ok)))

/-- PUBLISH (R172): the refusals in their order, each changing nothing but its answer; a request that passes becomes
the operation in progress, whose first read of the script is asked of the arbiter, and nothing else changes. Its reads
(R173): the header's checks in their order, then the cues, each read from its place (R64) and coding (R197) and held to its kind's own checks, in index order; a
failure ends the operation with its outcome, a pass goes on to the next read, and behind the last cue the version is installed
(R174): the old version retires or is reclaimed, the new one is LIVE with its pages, and the rewrite of the directory
page begins, with the image of its live versions. At the end of its program phase STORE_DONE reports the version. That
each read but the last is of 64 bytes, where R173 says at most 64, is the model's choice (log 28). (The request slot
keeps the frame of the request: the model's choice, log 33.) -/
def Obligations.PublishIsTaken : Prop :=
  (∀ (g : Byte) (f : Half) (s : State), Accepts s .programme →
    let i := Instr.publish .programme g f
    ((g.toNat = 0 ∨ 64 < g.toNat ∨ f.toNat < 8 ∨ 511 < f.toNat) → exec i s = .next (s.answer .programme i .badArg)) ∧
    (∀ q : ProgId, g.toNat = q.number → 8 ≤ f.toNat → f.toNat ≤ 511 →
      (s.store.op ≠ none → exec i s = .next (s.answer .programme i .busy)) ∧
      (s.store.op = none → (s.dirEntry q).retiring ≠ none → exec i s = .next (s.answer .programme i .pinned)) ∧
      (s.store.op = none → (s.dirEntry q).retiring = none →
        exec i s = .next ((s.modStore fun x =>
          { x with op := some { port := .programme, body := .publish q f.toNat (.validating none 0 0) },
                   ownRead := true }).answer .programme i .accepted)))) ∧
  (∀ (mask : BitVec 8) (last : Bool) (depth d : Nat) (b : List Byte),
    let check (r : Record) : Prop := cueDepth? mask last depth r b = some d
    (∀ n bell v : Nat, check (.play n (.strike bell v)) ↔ last = false ∧ bell ≤ 23 ∧ 1 ≤ v ∧ v ≤ 127 ∧ d = depth) ∧
    (∀ n bell v i j k : Nat, check (.play n (.roll bell v i j k)) ↔ last = false ∧ bell ≤ 23 ∧ 1 ≤ v ∧ v ≤ 127 ∧
      2 ≤ i ∧ i ≤ 200 ∧ 2 ≤ j ∧ j ≤ 200 ∧ 2 ≤ k ∧ d = depth) ∧
    (∀ (n a p w : Nat) (x : Int), check (.play n (.move a x p w)) ↔ last = false ∧ mask.getLsbD a = true ∧ p ≤ 15 ∧
      (b.getD 7 0#8 = 0#8 ∨ b.getD 7 0#8 = 1#8) ∧ d = depth) ∧
    (∀ n a w : Nat, check (.play n (.waitAxis a w)) ↔ last = false ∧ mask.getLsbD a = true ∧ w ≠ 0 ∧ d = depth) ∧
    (∀ n m : Nat, check (.play n (.mark m)) ↔ last = false ∧ d = depth) ∧
    (∀ n : Nat, check (.play n .endShow) ↔ last = true ∧ depth = 0 ∧ d = depth) ∧
    (∀ n k : Nat, check (.loopBegin n k) ↔ last = false ∧ n = 0 ∧ k ≠ 0 ∧ depth < 4 ∧ d = depth + 1) ∧
    (∀ n : Nat, check (.loopEnd n) ↔ last = false ∧ n = 0 ∧ d + 1 = depth) ∧
    ¬ check .noKind) ∧
  (∀ k d0 d1 b3 b4 b5 b6 b7 : Byte,
    let d : Nat := d0.toNat + 256 * d1.toNat
    recordOf [k, d0, d1, b3, b4, b5, b6, b7] =
      if k = 1#8 then .play d (.strike b3.toNat b4.toNat)
      else if k = 2#8 then .play d (.roll b3.toNat b4.toNat b5.toNat b6.toNat b7.toNat)
      else if k = 3#8 then .play d (.move b3.toNat (BitVec.toInt (b5 ++ b4)) b6.toNat b7.toNat)
      else if k = 4#8 then .play d (.waitAxis b3.toNat b4.toNat)
      else if k = 5#8 then .play d (.mark (b3.toNat + 256 * b4.toNat))
      else if k = 6#8 then .loopBegin d b3.toNat
      else if k = 7#8 then .loopEnd d
      else if k = 8#8 then .play d .endShow
      else .noKind) ∧
  (∀ (n : Nvm) (v : Version) (count i depth : Nat),
    let at_ : Nat := if i < 60 then 512 * v.firstPage + 32 + 8 * i
      else 512 * (v.firstPage + 1 + (i - 60) / 64) + 8 * ((i - 60) % 64)
    let b : List Byte := (List.range 8).map fun k => n.byte (at_ + k)
    let after : Option Nat := cueDepth? v.axisMask (decide (i + 1 = v.cueCount)) depth (recordOf b) b
    512 * (recordAt v.firstPage i).1 + (recordAt v.firstPage i).2 = at_ ∧
    checkCues n v 0 i depth = .ok depth ∧
    (∀ d : Nat, after = some d → checkCues n v (count + 1) i depth = checkCues n v count (i + 1) d) ∧
    (after = none → checkCues n v (count + 1) i depth = .error i)) ∧
  (∀ (b : List Byte) (first : Nat),
    let cues : Nat := byteIn b 6 + 256 * byteIn b 7
    headerOf b first =
      { programme := byteIn b 0
        version := { version := byteIn b 2 + 256 * byteIn b 3, firstPage := first,
                     pageCount := (32 + 8 * cues + 511) / 512, cueCount := cues, axisMask := b.getD 1 0#8,
                     priority := byteIn b 8, latestStart := byteIn b 4 + 256 * byteIn b 5, references := 0 } }) ∧
  ∀ (op : Operation) (g : ProgId) (first : Nat) (s : State), Awake s → s.store.op = some op →
    let ended (u : State) (o : OpOutcome) (value : Nat) : State :=
      ((u.modStore fun x =>
        { x with op := none, last := some { kind := .publish, port := op.port, subject := some (.programme g.number),
                                            outcome := o, value := value } }).report .storeDone
        (some (.programme g.number)) (some 2) (some o.code)).countStore fun c =>
          if o = .ok then { c with publishes := sat32 c.publishes }
          else { c with failedPublishes := sat32 c.failedPublishes }
    (∀ (version : Nat) (image : List Byte), op.body = .publish g first (.rewriting version image) →
      s.store.array = .programming 0 →
      exec .programPhaseEnd s = .next (ended (s.modStore fun x =>
        { x with array := .idle, nvm := x.nvm.programPage (dirPage g) image }) .ok version)) ∧
    ∀ (header : Option Header) (done depth : Nat) (f : InFlight),
      op.body = .publish g first (.validating header done depth) →
      s.store.path = some f → f.left = 0 → f.who = .store → s.store.waiting = none →
      (∀ n, s.store.array ≠ .suspended n) →
      let read := s.modStore fun x => { x with path := none }
      let h := header.getD (headerOf (s.store.nvm.bytes (512 * first) 32) first)
      let v := h.version
      let bad : Prop := h.programme ≠ g.number ∨ v.version = 0 ∨ 7 < v.priority ∨ 600 < v.latestStart ∨ v.cueCount = 0 ∨
        4092 < v.cueCount ∨ 512 < first + v.pageCount
      let same : Prop := ∃ w : Version, s.live? g = some w ∧ w.version = v.version
      let passed : Prop := header ≠ none ∨ (¬ bad ∧ ¬ same ∧
        ∀ n, first ≤ n → n < first + v.pageCount → s.pageState n = some .draft)
      let next := min (done + 64) (32 + 8 * v.cueCount)
      let cues := checkCues s.store.nvm v ((next - 32) / 8 - (done - 32) / 8) ((done - 32) / 8) depth
      (header = none → bad → exec .readComplete s = .next (ended read .badHeader 0)) ∧
      (header = none → ¬ bad → same → exec .readComplete s = .next (ended read .sameVersion 0)) ∧
      (∀ n : Nat, header = none → ¬ bad → ¬ same → first ≤ n → n < first + v.pageCount → s.pageState n ≠ some .draft →
        (∀ m, first ≤ m → m < n → s.pageState m = some .draft) →
        exec .readComplete s = .next (ended read .notDraft n)) ∧
      (∀ i : Nat, passed → cues = .error i → exec .readComplete s = .next (ended read .invalid i)) ∧
      (∀ d : Nat, passed → cues = .ok d → next < 32 + 8 * v.cueCount →
        exec .readComplete s = .next (read.modStore fun x =>
          { x with op := some { port := op.port, body := .publish g first (.validating (some h) next d) },
                   ownRead := true })) ∧
      (∀ d : Nat, passed → cues = .ok d → next = 32 + 8 * v.cueCount → (s.dirEntry g).retiring = none →
        ∃ t, exec .readComplete s = .next t ∧
          t.dirEntry g = { live := some v, retiring := (s.live? g).bind fun w => if 0 < w.references then some w else none } ∧
          (∀ r : ProgId, r ≠ g → t.dirEntry r = s.dirEntry r) ∧
          t.store.op = some { port := op.port, body := .publish g first (.rewriting v.version (t.dirImage (dirPage g))) } ∧
          t.store.path = none ∧ t.store.waiting = none ∧
          (t.store.array = .erasing 800 ∨ t.store.array = .suspended 800) ∧ t.store.nvm = s.store.nvm ∧
          (∀ n : Nat, 8 ≤ n → n < 512 →
            (v.firstPage ≤ n → n < v.firstPage + v.pageCount → t.pageState n = some .live) ∧
            (¬ (v.firstPage ≤ n ∧ n < v.firstPage + v.pageCount) →
              (∀ w, s.live? g = some w → w.firstPage ≤ n → n < w.firstPage + w.pageCount →
                t.pageState n = some (if 0 < w.references then .retiring else .dirty)) ∧
              ((∀ w, s.live? g = some w → ¬ (w.firstPage ≤ n ∧ n < w.firstPage + w.pageCount)) →
                t.pageState n = s.pageState n))) ∧
          t.time = s.time ∧ t.backup = s.backup ∧ t.calendar = s.calendar ∧ t.strikes = s.strikes ∧
          t.hammer = s.hammer ∧ t.axes = s.axes ∧ t.shows = s.shows ∧ t.stage = s.stage ∧ t.pins = s.pins)

/-- REMOVE (R175): the refusals in their order, each changing nothing but its answer. A request that passes empties
the entry at once: a version that a player references retires with its pages, one that none references leaves its
pages DIRTY; and the operation begins with the erase phase of the directory page, whose image holds the live versions
of that page as they then stand, laid out as R198 gives it. At the end of its program phase the page holds that image, and STORE_DONE reports it.
(The request slot keeps the frame of the request: the model's choice, log 33.) -/
def Obligations.RemoveEmptiesTheEntry : Prop :=
  (∀ (g : Byte) (s : State), Accepts s .programme →
    let i := Instr.remove .programme g
    ((g.toNat = 0 ∨ 64 < g.toNat) → exec i s = .next (s.answer .programme i .badArg)) ∧
    (∀ q : ProgId, g.toNat = q.number →
      (s.store.op ≠ none → exec i s = .next (s.answer .programme i .busy)) ∧
      (s.store.op = none → s.live? q = none → exec i s = .next (s.answer .programme i .notFound)) ∧
      (s.store.op = none → s.live? q ≠ none → (s.dirEntry q).retiring ≠ none →
        exec i s = .next (s.answer .programme i .pinned)) ∧
      (∀ v : Version, s.store.op = none → s.live? q = some v → (s.dirEntry q).retiring = none →
        let d : DirEntry := { live := none, retiring := if 0 < v.references then some v else none }
        let image := (s.modDir q fun _ => d).dirImage (dirPage q)
        ∃ t, exec i s = .next t ∧ OperationBegun s t .programme (.remove q image) .erase ∧ t.dirEntry q = d ∧
          (∀ r : ProgId, r ≠ q → t.dirEntry r = s.dirEntry r) ∧
          (∀ n : Nat, 8 ≤ n → n < 512 → t.pageState n =
            if v.firstPage ≤ n ∧ n < v.firstPage + v.pageCount then
              some (if 0 < v.references then .retiring else .dirty) else s.pageState n) ∧
          t.store.counters.reclaims =
            (if 0 < v.references then s.store.counters.reclaims else sat32 s.store.counters.reclaims)))) ∧
  (∀ (page : Nat) (s : State), page = 1 ∨ page = 2 →
    let image := s.dirImage page
    PageImage image 384 ∧
    ∀ g : ProgId, g.val / 32 + 1 = page →
      let o := 12 * (g.val % 32)
      dirPage g = page ∧ (s.live? g = none → byteIn image o ≠ 1) ∧
      ∀ v : Version, s.live? g = some v →
        byteIn image o = 1 ∧ Holds image (o + 1) 2 v.version ∧ Holds image (o + 3) 2 v.firstPage ∧
        Holds image (o + 5) 1 v.pageCount ∧ Holds image (o + 6) 2 v.cueCount ∧ byteIn image (o + 8) = v.axisMask.toNat ∧
        Holds image (o + 9) 1 v.priority ∧ Holds image (o + 10) 2 v.latestStart) ∧
  ∀ (op : Operation) (q : ProgId) (image : List Byte) (s : State), Awake s → s.store.op = some op →
    op.body = .remove q image → s.store.array = .programming 0 →
    exec .programPhaseEnd s = .next (((s.modStore fun x =>
      { x with array := .idle, nvm := x.nvm.programPage (dirPage q) image, op := none,
               last := some { kind := .remove, port := op.port, subject := some (.programme q.number), outcome := .ok,
                              value := 0 } }).report .storeDone (some (.programme q.number)) (some 3) (some 0)).countStore
        fun c => { c with removes := sat32 c.removes })

/-- WRITE_CALENDAR replaces a definition and makes its last-handled stamp absent (R30); WRITE_SEASON replaces an entry
and recomputes the active season (R31); WRITE_PROFILE replaces a profile (R125). An index or a field out of range (R20,
R22, R125), or a flag byte of neither value, is answered BAD_ARG and changes nothing else. (The request slot keeps the frame of the request: the model's choice, log
33.) -/
def Obligations.TableWritesReplaceEntries : Prop :=
  ∀ (k : Byte) (c : CalendarPayload) (e : SeasonPayload) (r : ProfilePayload) (s : State), Accepts s .programme →
    let cal : CalendarEntry :=
      { enabled := c.enabled == 1#8, programme := c.programme.toNat
        kind := if c.kind = 0#8 then .dailyAt else if c.kind = 1#8 then .hourly else .interval
        hour := c.hour.toNat, minute := c.minute.toNat, hourlyMinute := c.hourlyMinute.toNat
        firstHour := c.firstHour.toNat, lastHour := c.lastHour.toNat, interval := c.interval.toNat
        windowFirst := c.windowFirst.toNat, windowLast := c.windowLast.toNat, weekdays := c.weekdays &&& 0x7F#8
        seasons := c.seasons, priority := c.priority.toNat, silent := if c.silent = 1#8 then .skip else .play }
    let calFits : Prop := c.enabled.toNat ≤ 1 ∧ 1 ≤ c.programme.toNat ∧ c.programme.toNat ≤ 64 ∧ c.priority.toNat ≤ 7 ∧
      c.silent.toNat ≤ 1 ∧
      ((c.kind = 0#8 ∧ c.hour.toNat ≤ 23 ∧ c.minute.toNat ≤ 59) ∨
       (c.kind = 1#8 ∧ c.hourlyMinute.toNat ≤ 59 ∧ c.firstHour.toNat ≤ c.lastHour.toNat ∧ c.lastHour.toNat ≤ 23) ∨
       (c.kind = 2#8 ∧ 5 ≤ c.interval.toNat ∧ c.interval.toNat ≤ 720 ∧ c.windowFirst.toNat ≤ c.windowLast.toNat ∧
        c.windowLast.toNat ≤ 1439))
    let days (month : Byte) : Nat := if month.toNat = 2 then 29
      else if month.toNat = 4 ∨ month.toNat = 6 ∨ month.toNat = 9 ∨ month.toNat = 11 then 30 else 31
    let season : SeasonEntry :=
      { enabled := e.enabled == 1#8, startMonth := e.startMonth.toNat, startDay := e.startDay.toNat
        endMonth := e.endMonth.toNat, endDay := e.endDay.toNat, seasonId := e.seasonId.toNat, rank := e.rank.toNat }
    let seasonFits : Prop := e.enabled.toNat ≤ 1 ∧ 1 ≤ e.startMonth.toNat ∧ e.startMonth.toNat ≤ 12 ∧
      1 ≤ e.endMonth.toNat ∧ e.endMonth.toNat ≤ 12 ∧ 1 ≤ e.startDay.toNat ∧ e.startDay.toNat ≤ days e.startMonth ∧
      1 ≤ e.endDay.toNat ∧ e.endDay.toNat ≤ days e.endMonth ∧ 1 ≤ e.seasonId.toNat ∧ e.seasonId.toNat ≤ 15 ∧
      e.rank.toNat ≤ 15
    (∀ n : CalId, k.toNat = n.val → calFits →
      exec (.writeCalendar .programme k c) s =
        .next (((s.modCalendar fun b => { b with entries := b.entries.set n cal }).modBackup fun b =>
          { b with stamps := b.stamps.set n none }).answer .programme (.writeCalendar .programme k c) .ok)) ∧
    ((63 < k.toNat ∨ ¬ calFits) →
      exec (.writeCalendar .programme k c) s =
        .next (s.answer .programme (.writeCalendar .programme k c) .badArg)) ∧
    (∀ n : SeasonId, k.toNat = n.val → seasonFits →
      exec (.writeSeason .programme k e) s =
        .next (((s.modCalendar fun b => { b with seasons := b.seasons.set n season }).setSeason
            (if s.backup.validity = .valid then
              seasonEntryOf (s.calendar.seasons.set n season) (wallFields s.backup.wallMs).date else none)).answer
          .programme (.writeSeason .programme k e) .ok)) ∧
    ((15 < k.toNat ∨ ¬ seasonFits) →
      exec (.writeSeason .programme k e) s = .next (s.answer .programme (.writeSeason .programme k e) .badArg)) ∧
    (∀ n : ProfileId, k.toNat = n.val → 1 ≤ r.maxSpeed.toNat → r.maxSpeed.toNat ≤ 20000 → 10 ≤ r.acceleration.toNat →
      r.acceleration.toNat ≤ 100000 → 10 ≤ r.deceleration.toNat → r.deceleration.toNat ≤ 100000 →
      exec (.writeProfile .programme k r) s =
        .next ((s.modAxes fun x =>
            { x with profiles := x.profiles.set n { maxSpeed := r.maxSpeed.toNat, acceleration := r.acceleration.toNat,
                                                    deceleration := r.deceleration.toNat } }).answer .programme (.writeProfile .programme k r) .ok)) ∧
    ((15 < k.toNat ∨ r.maxSpeed.toNat = 0 ∨ 20000 < r.maxSpeed.toNat ∨ r.acceleration.toNat < 10 ∨
        100000 < r.acceleration.toNat ∨ r.deceleration.toNat < 10 ∨ 100000 < r.deceleration.toNat) →
      exec (.writeProfile .programme k r) s = .next (s.answer .programme (.writeProfile .programme k r) .badArg))

/-- SAVE_TABLES from the programme and the service port (R176), and WRITE_SETUP (R178): the refusals in their order,
and the operation begun with its images taken in the event of the request: of the tables in their pages, each entry's
fields at the places and in the codings of R198 (a bell that is FAULTED as IN_SERVICE, R78) and every other byte up to the
page check 0xFF; of the setup record each field with its complement. The end of a program phase leaves the image
in its page: of the last page of SAVE_TABLES, or of WRITE_SETUP, it ends the operation; of an earlier one the erase of
the next page begins. (The request slot keeps the frame of the request: the model's choice, log 33.) -/
def Obligations.SavesBeginWithTheirImages : Prop :=
  (∀ (p : PortId) (s : State), Accepts s p → p ≠ .venue →
    (s.store.op ≠ none → exec (.saveTables p) s = .next (s.answer p (.saveTables p) .busy)) ∧
    (s.store.op = none → ∃ t, exec (.saveTables p) s = .next t ∧
      OperationBegun s t p (.saveTables [(3, s.tableImage 3), (4, s.tableImage 4), (5, s.tableImage 5),
        (6, s.tableImage 6), (7, s.tableImage 7)]) .erase ∧
      t.store.map = s.store.map ∧ t.store.dir = s.store.dir)) ∧
  (∀ (c : SetupPayload) (s : State), Accepts s .service →
    let i := Instr.writeSetup .service c
    let address (x : Byte) : Prop := 0x08 ≤ x.toNat ∧ x.toNat ≤ 0x77
    let fits : Prop := address c.venueAddress ∧ address c.programmeAddress ∧ address c.serviceAddress ∧
      c.venueHold.toNat ≤ 1 ∧ c.programmeHold.toNat ≤ 1 ∧ c.serviceHold.toNat ≤ 1 ∧ 1 ≤ c.driveSlots.toNat ∧
      c.driveSlots.toNat ≤ 6 ∧ c.slipAllowance.toNat ≤ 30 ∧ 1 ≤ c.holdTimeout.toNat ∧ 1 ≤ c.freezeLimit.toNat ∧
      c.freezeLimit.toNat ≤ 60 ∧ c.autoHome.toNat ≤ 1
    (¬ fits → exec i s = .next (s.answer .service i .badArg)) ∧
    (fits →
      (s.stage.mode ≠ .manual → exec i s = .next (s.answer .service i .mode)) ∧
      (s.stage.mode = .manual → ((∃ p : PlayerId, (s.player p).state ≠ .idle) ∨ s.store.op ≠ none) →
        exec i s = .next (s.answer .service i .busy)) ∧
      (s.stage.mode = .manual → (∀ p : PlayerId, (s.player p).state = .idle) → s.store.op = none →
        ∃ t, exec i s = .next t ∧ OperationBegun s t .service (.writeSetup (SetupPayload.image c)) .erase ∧
          t.store.map = s.store.map ∧ t.store.dir = s.store.dir))) ∧
  (∀ c : SetupPayload,
    let image := SetupPayload.image c
    let at_ (k : Nat) : Byte := image.getD k 0#8
    image.length = 512 ∧
    (∀ f ∈ [(0, c.venueAddress), (2, c.programmeAddress), (4, c.serviceAddress), (6, c.venueHold), (8, c.programmeHold),
        (10, c.serviceHold), (12, c.driveSlots), (14, c.slipAllowance), (16, c.holdTimeout), (18, c.freezeLimit),
        (20, c.autoHome)],
      at_ f.1 = f.2 ∧ at_ (f.1 + 1) = ~~~f.2) ∧
    at_ 23 ++ at_ 22 = c.protection ∧ at_ 25 ++ at_ 24 = ~~~c.protection) ∧
  (∀ s : State,
    (∀ page : Nat, page = 3 ∨ page = 4 →
      let image := s.tableImage page
      PageImage image 480 ∧ ∀ k : CalId, k.val / 32 + 3 = page →
        let e := s.calendar.entries[k]
        let o := 15 * (k.val % 32)
        (e.priority ≤ 7 → byteIn image o = (if e.enabled then 1 else 0) +
          2 * (match e.kind with | .dailyAt => 0 | .hourly => 1 | .interval => 2 | .noKind => 3) +
          (if e.silent = .skip then 8 else 0) + 16 * e.priority) ∧
        Holds image (o + 1) 1 e.programme ∧ Holds image (o + 2) 1 e.hour ∧ Holds image (o + 3) 1 e.minute ∧
        Holds image (o + 4) 1 e.hourlyMinute ∧ Holds image (o + 5) 1 e.firstHour ∧ Holds image (o + 6) 1 e.lastHour ∧
        Holds image (o + 7) 2 e.interval ∧
        (e.windowFirst < 4096 → e.windowLast < 4096 → Holds image (o + 9) 3 (e.windowFirst + 4096 * e.windowLast)) ∧
        Holds image (o + 12) 1 e.weekdays.toNat ∧ Holds image (o + 13) 2 e.seasons.toNat) ∧
    (PageImage (s.tableImage 5) 112 ∧ ∀ k : SeasonId,
      let image := s.tableImage 5
      let e := s.calendar.seasons[k]
      let o := 7 * k.val
      byteIn image o = (if e.enabled then 1 else 0) ∧ Holds image (o + 1) 1 e.startMonth ∧
      Holds image (o + 2) 1 e.startDay ∧ Holds image (o + 3) 1 e.endMonth ∧ Holds image (o + 4) 1 e.endDay ∧
      Holds image (o + 5) 1 e.seasonId ∧ Holds image (o + 6) 1 e.rank) ∧
    (PageImage (s.tableImage 6) 336 ∧
      let image := s.tableImage 6
      (∀ k : ProfileId,
        let e := s.axes.profiles[k]
        let o := 10 * k.val
        Holds image o 2 e.maxSpeed ∧ Holds image (o + 2) 4 e.acceleration ∧ Holds image (o + 6) 4 e.deceleration) ∧
      ∀ k : InterlockId,
        let e := s.axes.interlocks[k]
        let o := 160 + 11 * k.val
        byteIn image o = (if e.enabled then 1 else 0) ∧ Holds image (o + 1) 1 e.guarded ∧
        HoldsSigned image (o + 2) e.safeLow ∧ HoldsSigned image (o + 4) e.safeHigh ∧ Holds image (o + 6) 1 e.condition ∧
        HoldsSigned image (o + 7) e.windowLow ∧ HoldsSigned image (o + 9) e.windowHigh) ∧
    (PageImage (s.tableImage 7) 464 ∧
      let image := s.tableImage 7
      (∀ b : BellId,
        let e := s.bell b
        let o := 12 * b.val
        byteIn image o = (if e.state = .disabled then 2 else 0) ∧ Holds image (o + 1) 2 e.driveMin ∧
        Holds image (o + 3) 2 e.driveMax ∧ Holds image (o + 5) 2 e.recover ∧ Holds image (o + 7) 2 e.flightInit ∧
        Holds image (o + 9) 1 e.velocityCap ∧ HoldsChoice image (o + 10) .activeHigh e.outputPolarity ∧
        HoldsChoice image (o + 11) .activeHigh e.contactPolarity) ∧
      ∀ a : AxisId,
        let e := (s.axis a).config
        let o := 288 + 22 * a.val
        byteIn image o = (if e.enabled then 1 else 0) ∧ HoldsSigned image (o + 1) e.softLow ∧
        HoldsSigned image (o + 3) e.softHigh ∧ HoldsSigned image (o + 5) e.home ∧
        HoldsChoice image (o + 7) .negative e.homeDirection ∧ Holds image (o + 8) 2 e.homeSpeed ∧
        Holds image (o + 10) 2 e.searchTravel ∧ Holds image (o + 12) 1 e.slipTolerance ∧
        Holds image (o + 13) 4 e.emergencyDeceleration ∧ HoldsChoice image (o + 17) .activeHigh e.stepPolarity ∧
        HoldsChoice image (o + 18) .highPositive e.directionPolarity ∧ HoldsChoice image (o + 19) .pushPull e.pinMode ∧
        HoldsChoice image (o + 20) false e.pullUp ∧ HoldsChoice image (o + 21) .high e.switchActive)) ∧
  ∀ (op : Operation) (s : State), Awake s → s.store.op = some op → s.store.array = .programming 0 →
    let ended (page : Nat) (image : List Byte) (k : OpKind) : State :=
      (s.modStore fun x =>
        { x with array := .idle, nvm := x.nvm.programPage page image, op := none,
                 last := some { kind := k, port := op.port, subject := none, outcome := .ok, value := 0 } }).report
        .storeDone none (some k.code) (some 0)
    (∀ (page : Nat) (image : List Byte), op.body = .saveTables [(page, image)] →
      exec .programPhaseEnd s =
        .next ((ended page image .saveTables).countStore fun c => { c with saves := sat32 c.saves })) ∧
    (∀ (page : Nat) (image : List Byte) (x : Nat × List Byte) (rest : List (Nat × List Byte)),
      op.body = .saveTables ((page, image) :: x :: rest) →
      ∃ t, exec .programPhaseEnd s = .next t ∧
        t.store.op = some { port := op.port, body := .saveTables (x :: rest) } ∧
        t.store.nvm = s.store.nvm.programPage page image ∧
        (s.store.path = none → t.store.waiting = none ∧
          (t.store.array = .erasing 800 ∨ t.store.array = .suspended 800)) ∧
        (s.store.path ≠ none → t.store.waiting = some .erase ∧ t.store.array = .idle) ∧
        t.store.map = s.store.map ∧ t.store.dir = s.store.dir ∧ t.store.counters.saves = s.store.counters.saves ∧
        t.time = s.time ∧ t.backup = s.backup ∧ t.calendar = s.calendar ∧ t.strikes = s.strikes ∧
        t.hammer = s.hammer ∧ t.axes = s.axes ∧ t.shows = s.shows ∧ t.stage = s.stage ∧ t.pins = s.pins) ∧
    ∀ image : List Byte, op.body = .writeSetup image → exec .programPhaseEnd s = .next (ended 0 image .writeSetup)

/-! ### Requests of the technician -/

/-- ENTER_MANUAL and LEAVE_MANUAL (R138, R155): MODE in HALTED; OK with nothing changed in the mode already asked for.
From AUTO the mode becomes MANUAL and the start-up list is empty. From MANUAL the mode becomes AUTO, and no service
move is left pending or moving and no HOME_AXIS homing goes on. Both owe an admission attempt. (The request slot keeps
the frame of the request: the model's choice, log 33.) -/
def Obligations.ManualModeIsEnteredAndLeft : Prop :=
  ∀ s : State, Accepts s .service →
    (s.stage.mode = .halted →
      exec (.enterManual .service) s = .next (s.answer .service (.enterManual .service) .mode) ∧
      exec (.leaveManual .service) s = .next (s.answer .service (.leaveManual .service) .mode)) ∧
    (s.stage.mode = .manual →
      exec (.enterManual .service) s = .next (s.answer .service (.enterManual .service) .ok) ∧
      ∃ t, exec (.leaveManual .service) s = .next t ∧ t.stage.mode = .auto ∧ t.todo.attempt = true ∧
        (∀ a : AxisId, (∀ m, (t.axis a).slot = some m → m.owner ≠ .service) ∧
          ¬ ((t.axis a).state = .moving ∧ (t.axis a).owner = .service) ∧
          ¬ ((t.axis a).state = .homing ∧ (t.axis a).homing.any (fun h => h.origin == .homeAxis) = true) ∧
          (t.axis a).config = (s.axis a).config ∧ (t.axis a).claim = (s.axis a).claim) ∧
        (t.port .service).response = { status := .done, result := .ok, data := [] } ∧
        t.time = s.time ∧ t.backup = s.backup ∧ t.calendar = s.calendar ∧ t.strikes = s.strikes ∧ t.hammer = s.hammer ∧
        t.channels = s.channels ∧ t.store = s.store ∧ t.pins = s.pins ∧ t.shows.queue = s.shows.queue) ∧
    (s.stage.mode = .auto →
      exec (.leaveManual .service) s = .next (s.answer .service (.leaveManual .service) .ok) ∧
      ∃ t, exec (.enterManual .service) s = .next t ∧ t.stage.mode = .manual ∧ t.stage.startup = [] ∧
        t.todo.attempt = true ∧ (t.port .service).response = { status := .done, result := .ok, data := [] } ∧
        t.time = s.time ∧ t.backup = s.backup ∧ t.calendar = s.calendar ∧ t.strikes = s.strikes ∧ t.hammer = s.hammer ∧
        t.channels = s.channels ∧ t.store = s.store ∧ t.pins = s.pins ∧ t.shows.queue = s.shows.queue)

/-- FREEZE and THAW (R156): MODE for FREEZE in HALTED; OK with nothing changed when FROZEN is already as asked. FREEZE
sets FROZEN and begins the freeze record at the stage time, reports FREEZE_STARTED with the freeze limit and is
counted; THAW clears FROZEN, keeps the record, and reports FREEZE_ENDED with the frozen duration. FREEZE_EXPIRED
(R157) clears FROZEN once the frozen duration has reached the freeze limit. Nothing else changes. (The request slot
keeps the frame of the request: the model's choice, log 33.) -/
def Obligations.FreezeThawAndExpiry : Prop :=
  (∀ s : State, Accepts s .service →
    (s.stage.mode = .halted →
      exec (.freeze .service) s = .next (s.answer .service (.freeze .service) .mode)) ∧
    (s.stage.mode ≠ .halted → s.time.frozen = true →
      exec (.freeze .service) s = .next (s.answer .service (.freeze .service) .ok)) ∧
    (s.stage.mode ≠ .halted → s.time.frozen = false →
      exec (.freeze .service) s =
        .next ((((s.modTime fun t => { t with frozen := true, freezeStage := t.stageTime, frozenMs := 0 }).report
          .freezeStarted none (some s.store.setup.freezeLimit)).countStage
            fun c => { c with freezes := sat32 c.freezes }).answer .service (.freeze .service) .ok)) ∧
    (s.time.frozen = false →
      exec (.thaw .service) s = .next (s.answer .service (.thaw .service) .ok)) ∧
    (s.time.frozen = true →
      exec (.thaw .service) s =
        .next (((s.modTime fun t => { t with frozen := false }).report .freezeEnded none (some 0)
          (some s.time.frozenMs)).answer .service (.thaw .service) .ok))) ∧
  ∀ s : State, Awake s →
    ((s.time.frozen = false ∨ s.time.frozenMs < s.store.setup.freezeLimit * 60000) → exec .freezeExpired s = .next s) ∧
    (s.time.frozen = true → s.store.setup.freezeLimit * 60000 ≤ s.time.frozenMs →
      exec .freezeExpired s =
        .next (((s.modTime fun t => { t with frozen := false }).report .freezeExpired none
          (some s.time.frozenMs)).countStage fun c => { c with freezeExpiries := sat32 c.freezeExpiries }))

/-- JOG (R127, R139): the refusals in their order, each changing nothing but its answer. A jog that passes is answered
ACCEPTED with the target after clamping to the soft limits and the clamped flag; its move is placed in the axis's
slot, due at once: on a MOVING or STOPPING axis it waits there; on an IDLE one it is held and reported where an
interlock entry stands in its way, and starts from rest where none does; on an axis that is at the target already it
starts and arrives at once. (The request slot keeps the frame of the request: the model's choice, log 33.) -/
def Obligations.JogPlacesAMove : Prop :=
  ∀ (axis form : Byte) (target : Half) (profile : Byte) (s : State), Accepts s .service →
    let i := Instr.jog .service axis form target profile
    ((7 < axis.toNat ∨ 1 < form.toNat ∨ 15 < profile.toNat) → exec i s = .next (s.answer .service i .badArg)) ∧
    ∀ (a : AxisId) (r : ProfileId), axis.toNat = a.val → form.toNat ≤ 1 → profile.toNat = r.val →
      (s.stage.mode ≠ .manual → exec i s = .next (s.answer .service i .mode)) ∧
      (s.stage.mode = .manual → (s.axis a).claim ≠ none → exec i s = .next (s.answer .service i .claimed)) ∧
      (s.stage.mode = .manual → (s.axis a).claim = none →
        (((s.axis a).state = .unhomed ∨ (s.axis a).state = .faulted ∨ (s.axis a).state = .disabled) →
          exec i s = .next (s.answer .service i .unavailable)) ∧
        (((s.axis a).state = .homing ∨
            ((s.axis a).slot ≠ none ∧ ((s.axis a).state = .idle ∨ (s.axis a).state = .moving ∨ (s.axis a).state = .stopping))) →
          exec i s = .next (s.answer .service i .busy)) ∧
        ((s.axis a).slot = none →
          let base : Int := if form = 0#8 then 0 else if (s.axis a).state = .moving then (s.axis a).target
            else (s.axis a).position
          let want : Int := base + target.toInt
          let got : Int := max (s.axis a).config.softLow (min want (s.axis a).config.softHigh)
          let m : PendingMove := { target := got, clamped := got != want, profile := r, due := s.time.stageTime,
                                   owner := .service, held := none }
          let u := s.modAxis a fun x => { x with slot := some m }
          let d := i16 got ++ flag (got != want)
          (((s.axis a).state = .moving ∨ (s.axis a).state = .stopping) →
            exec i s = .next (u.answer .service i .accepted d)) ∧
          ((s.axis a).state = .idle →
            (∀ e : InterlockId, u.obstacle a got = some e →
              exec i s = .next ((((s.modAxis a fun x =>
                { x with slot := some { m with held := some s.time.stageTime } }).report .moveHeld (some (.axis a.val))
                (some 3) (some e.val)).countStage fun c => { c with movesHeld := sat32 c.movesHeld }).answer .service i
                .accepted d)) ∧
            (u.obstacle a got = none → (s.axis a).position ≠ got →
              exec i s = .next (((s.modAxis a fun x =>
                { x with slot := none, target := got, clamped := got != want, owner := .service,
                         profile := s.axes.profiles[r], velocity := 0, stepAccumulator := 0, speedRemainder := 0,
                         lastAction := .none, direction := if x.position < got then .positive else .negative,
                         state := .moving }).countAxis fun c =>
                { c with movesStarted := sat32 c.movesStarted }).answer .service i .accepted d)) ∧
            (u.obstacle a got = none → (s.axis a).position = got →
              ∃ t, exec i s = .next t ∧ (t.axis a).state = .idle ∧ (t.axis a).slot = none ∧ (t.axis a).position = got ∧
                (t.axis a).target = got ∧ (t.axis a).owner = .service ∧
                (t.port .service).response = { status := .done, result := .accepted, data := d } ∧
                (∀ b : AxisId, (t.axis b).config = (s.axis b).config ∧ (t.axis b).claim = (s.axis b).claim) ∧
                t.time = s.time ∧ t.backup = s.backup ∧ t.calendar = s.calendar ∧ t.strikes = s.strikes ∧
                t.hammer = s.hammer ∧ t.channels = s.channels ∧ t.store = s.store ∧ t.pins = s.pins ∧
                t.shows.queue = s.shows.queue ∧ t.stage.mode = s.stage.mode))))

/-- STOP_AXIS (R140): BAD_ARG for no axis or no kind; otherwise OK, in every mode. Afterwards the axis has no pending
move and is neither MOVING nor HOMING; at rest with an empty slot, nothing has changed. A MOVING axis with speed is
STOPPING with the kind asked for and cause STOP_AXIS; that the steps left of its motion tick are still issued, and no
longer end its motion, is the model's reading (log 4). (The request slot keeps the frame of the request: the model's
choice, log 33.) -/
def Obligations.StopAxisStops : Prop :=
  ∀ (axis kind : Byte) (s : State), Accepts s .service →
    let i := Instr.stopAxis .service axis kind
    ((7 < axis.toNat ∨ 1 < kind.toNat) → exec i s = .next (s.answer .service i .badArg)) ∧
    ∀ a : AxisId, axis.toNat = a.val → kind.toNat ≤ 1 →
      (∃ t, exec i s = .next t ∧ (t.axis a).slot = none ∧ (t.axis a).state ≠ .moving ∧ (t.axis a).state ≠ .homing ∧
        (t.axis a).config = (s.axis a).config ∧ (t.axis a).claim = (s.axis a).claim ∧
        (t.port .service).response = { status := .done, result := .ok, data := [] } ∧
        t.time = s.time ∧ t.backup = s.backup ∧ t.calendar = s.calendar ∧ t.strikes = s.strikes ∧ t.hammer = s.hammer ∧
        t.channels = s.channels ∧ t.store = s.store ∧ t.pins = s.pins ∧ t.shows.queue = s.shows.queue ∧
        t.stage.mode = s.stage.mode) ∧
      ((s.axis a).slot = none → (s.axis a).inMotion = false → exec i s = .next (s.answer .service i .ok)) ∧
      ((s.axis a).slot = none → (s.axis a).state = .moving → (s.axis a).velocity ≠ 0 →
        exec i s = .next ((s.modAxis a fun x =>
          { x with
            state := .stopping, lastAction := .decelerate,
            stop := some { kind := if kind = 0#8 then .controlled else .emergency, cause := .stopAxis },
            speedRemainder := if x.lastAction = .accelerate then 0 else x.speedRemainder,
            burst := x.burst.map Burst.goOn }).answer .service i .ok))

/-- HOME_AXIS (R132, R141, R150): the refusals in their order, each changing nothing but its answer. A request that
passes is answered ACCEPTED: the axis is HOMING with its position not valid and no slip passage, in BACKOFF away from
the switch where the switch is made, else in SEARCH toward it; it leaves the start-up list. (The request slot keeps
the frame of the request: the model's choice, log 33.) -/
def Obligations.HomeAxisBeginsHoming : Prop :=
  ∀ (axis : Byte) (s : State), Accepts s .service →
    let i := Instr.homeAxis .service axis
    (7 < axis.toNat → exec i s = .next (s.answer .service i .badArg)) ∧
    ∀ a : AxisId, axis.toNat = a.val →
      (s.stage.mode ≠ .manual → exec i s = .next (s.answer .service i .mode)) ∧
      (s.stage.mode = .manual → (s.axis a).claim ≠ none → exec i s = .next (s.answer .service i .claimed)) ∧
      (s.stage.mode = .manual → (s.axis a).claim = none →
        (((s.axis a).state = .faulted ∨ (s.axis a).state = .disabled) →
          exec i s = .next (s.answer .service i .unavailable)) ∧
        (((s.axis a).state = .unhomed ∨ (s.axis a).state = .idle) → (s.axis a).slot ≠ none →
          exec i s = .next (s.answer .service i .busy)) ∧
        (((s.axis a).state = .homing ∨ (s.axis a).state = .moving ∨ (s.axis a).state = .stopping) →
          exec i s = .next (s.answer .service i .busy)) ∧
        (((s.axis a).state = .unhomed ∨ (s.axis a).state = .idle) → (s.axis a).slot = none →
          (∀ e : InterlockId, s.homingObstacle a = some e →
            exec i s = .next (s.answer .service i .unavailable (u8 e.val))) ∧
          (s.homingObstacle a = none →
            let made := (s.axis a).config.made s.pins.switch[a]
            exec i s = .next (((s.modAxis a fun x =>
              { x with
                positionValid := false, passage := none, stepAccumulator := 0, state := .homing,
                homing := some { phase := if made then .backoff else .search, travel := 0, origin := .homeAxis },
                direction := if made then x.config.homeDir.opposite else x.config.homeDir }).modStage fun g =>
              { g with startup := g.startup.filter (· != a) }).answer .service i .accepted))))

/-- TEST_STRIKE (R99): the refusals in their order. A strike that the guard and the queue leave room for is placed
with its launch at the current stage time or at the bell's ready time, and the response carries its velocity, drive
time, launch time and sound time; under mute one that is due at once leaves the queue again, counted muted (R92).
Nothing else changes. (The request slot keeps the frame of the request: the model's choice, log 33.) -/
def Obligations.TestStrikeIsOffered : Prop :=
  ∀ (bell velocity : Byte) (s : State), Accepts s .service →
    let i := Instr.testStrike .service bell velocity
    ((23 < bell.toNat ∨ velocity.toNat = 0 ∨ 127 < velocity.toNat) → exec i s = .next (s.answer .service i .badArg)) ∧
    ∀ b : BellId, bell.toNat = b.val → 1 ≤ velocity.toNat → velocity.toNat ≤ 127 →
      (s.stage.mode ≠ .manual → exec i s = .next (s.answer .service i .mode)) ∧
      (s.stage.mode = .manual → (s.bell b).state ≠ .inService →
        exec i s = .next ((s.countStrike fun c =>
          { c with refusedUnavailable := sat48 c.refusedUnavailable }).answer .service i .unavailable)) ∧
      (s.stage.mode = .manual → (s.bell b).state = .inService →
        let f := s.strikeFigures b velocity.toNat
        let sound := s.time.stageTime + (f.2 + (s.bell b).flight)
        (guardedLaunch s.time.stageTime (s.readyTime b) s.store.setup.slipAllowance = none →
          exec i s = .next ((s.countStrike fun c =>
            { c with refusedCollided := sat48 c.refusedCollided }).answer .service i .busy)) ∧
        ∀ l : Nat, guardedLaunch s.time.stageTime (s.readyTime b) s.store.setup.slipAllowance = some l →
          (32 ≤ s.strikes.queue.length →
            exec i s = .next ((s.countStrike fun c =>
              { c with refusedFull := sat48 c.refusedFull }).answer .service i .full)) ∧
          (s.strikes.queue.length < 32 → s.backup.mute = true → l ≤ s.time.stageTime →
            (∀ x ∈ s.strikes.queue, x.number ≤ s.strikes.enqueued) →
            exec i s = .next ((s.modStrikes fun k =>
              { k with
                enqueued := k.enqueued + 1
                counters := { k.counters with enqueued := sat48 k.counters.enqueued
                                              muted := sat48 k.counters.muted } }).answer .service i .accepted
              (u8 f.1 ++ u16 f.2 ++ u48 l ++ u48 sound))) ∧
          (s.strikes.queue.length < 32 → (s.backup.mute = false ∨ s.time.stageTime < l) →
            let e : StrikeEntry :=
              { bell := b, velocity := f.1, drive := f.2, flight := (s.bell b).flight, sound := sound, launch := l,
                latest := s.time.stageTime + 5000, guardEnd := l + f.2 + (s.bell b).flight + (s.bell b).recover,
                recover := (s.bell b).recover, owner := none, slot := none, number := s.strikes.enqueued + 1 }
            exec i s = .next ((s.modStrikes fun k =>
              { k with
                queue := k.queue.takeWhile (fun x => !e.before x) ++ e :: k.queue.dropWhile (fun x => !e.before x)
                enqueued := k.enqueued + 1
                counters := { k.counters with enqueued := sat48 k.counters.enqueued } }).answer .service i .accepted
              (u8 f.1 ++ u16 f.2 ++ u48 l ++ u48 sound))))

/-- WRITE_BELL (R118) with every field in the range of R77 replaces the bell's configuration, its flight estimate becoming
flight_init and its misses 0; a field out of range is BAD_ARG, a queued strike or a hammer out of REST is BUSY.
CLEAR_FAULT of a bell (R119) brings a FAULTED bell IN_SERVICE with misses 0, and leaves any other as it is. Nothing
else changes. A target kind of no target is BAD_ARG; so is the kind byte of an axis in the command that names a bell,
which no frame spells (the model's choice, log 1). (The request slot keeps the frame of the request: the model's
choice, log 33.) -/
def Obligations.BellServiceRequests : Prop :=
  ∀ (bell : Byte) (c : BellPayload) (kind : Byte) (s : State), Accepts s .service →
    (23 < bell.toNat →
      exec (.writeBell .service bell c) s = .next (s.answer .service (.writeBell .service bell c) .badArg) ∧
      exec (.clearFaultBell .service 0#8 bell) s =
        .next (s.answer .service (.clearFaultBell .service 0#8 bell) .badArg)) ∧
    (kind ≠ 0#8 →
      exec (.clearFaultBell .service kind bell) s =
        .next (s.answer .service (.clearFaultBell .service kind bell) .badArg)) ∧
    ∀ b : BellId, bell.toNat = b.val →
      ((s.bell b).state = .faulted →
        exec (.clearFaultBell .service 0#8 bell) s =
          .next ((s.modBell b fun x => { x with state := .inService, misses := 0 }).answer .service
            (.clearFaultBell .service 0#8 bell) .ok)) ∧
      ((s.bell b).state ≠ .faulted →
        exec (.clearFaultBell .service 0#8 bell) s =
          .next (s.answer .service (.clearFaultBell .service 0#8 bell) .ok)) ∧
      let fits : Prop := (c.state = 0#8 ∨ c.state = 2#8) ∧ 20 ≤ c.driveMin.toNat ∧ c.driveMin.toNat ≤ c.driveMax.toNat ∧
        c.driveMax.toNat ≤ 2000 ∧ c.recover.toNat ≤ 25000 ∧ 100 ≤ c.flightInit.toNat ∧ c.flightInit.toNat ≤ 3000 ∧
        1 ≤ c.velocityCap.toNat ∧ c.velocityCap.toNat ≤ 127 ∧ c.outputPolarity.toNat ≤ 1 ∧ c.contactPolarity.toNat ≤ 1
      let polarity (x : Byte) : Coded Polarity := .known (if x = 0#8 then .activeHigh else .activeLow)
      (¬ fits → exec (.writeBell .service bell c) s = .next (s.answer .service (.writeBell .service bell c) .badArg)) ∧
      (fits → ((∃ e ∈ s.strikes.queue, e.bell = b) ∨ (s.hammerOf b).state ≠ .rest) →
        exec (.writeBell .service bell c) s = .next (s.answer .service (.writeBell .service bell c) .busy)) ∧
      (fits → (∀ e ∈ s.strikes.queue, e.bell ≠ b) → (s.hammerOf b).state = .rest →
        exec (.writeBell .service bell c) s =
          .next ((s.modBell b fun x =>
            { x with state := if c.state = 0#8 then .inService else .disabled, driveMin := c.driveMin.toNat
                     driveMax := c.driveMax.toNat, recover := c.recover.toNat, flightInit := c.flightInit.toNat
                     flight := c.flightInit.toNat, velocityCap := c.velocityCap.toNat
                     outputPolarity := polarity c.outputPolarity, contactPolarity := polarity c.contactPolarity
                     misses := 0 }).answer .service (.writeBell .service bell c) .ok))

/-- WRITE_AXIS (R142) replaces the configuration of an unclaimed axis at rest with an empty slot, whose position is
then not valid: the axis is UNHOMED, or DISABLED. CLEAR_FAULT of an axis brings a FAULTED axis to UNHOMED.
WRITE_INTERLOCK (R151) replaces an entry while the mode is MANUAL and nothing moves. A field out of the ranges of R122 or
R145, or a byte that names no value of its field, is BAD_ARG. The refusals stand in the order
of their rules, and change nothing but the answer; CLEAR_FAULT of an axis that is not FAULTED is answered OK and, with
no move held, changes nothing else either. (The request slot keeps the frame of the request: the model's choice, log
33.) -/
def Obligations.AxisServiceRequests : Prop :=
  ∀ (n : Byte) (c : AxisPayload) (e : InterlockPayload) (s : State), Accepts s .service →
    (7 < n.toNat →
      exec (.writeAxis .service n c) s = .next (s.answer .service (.writeAxis .service n c) .badArg) ∧
      exec (.clearFaultAxis .service n) s = .next (s.answer .service (.clearFaultAxis .service n) .badArg)) ∧
    let fits : Prop := c.enabled.toNat ≤ 1 ∧ c.softLow.toInt < c.softHigh.toInt ∧ c.softLow.toInt ≤ c.home.toInt ∧
      c.home.toInt ≤ c.softHigh.toInt ∧ c.homeDirection.toNat ≤ 1 ∧ 1 ≤ c.homeSpeed.toNat ∧ c.homeSpeed.toNat ≤ 20000 ∧
      1 ≤ c.searchTravel.toNat ∧ 10 ≤ c.emergencyDeceleration.toNat ∧ c.emergencyDeceleration.toNat ≤ 100000 ∧
      c.stepPolarity.toNat ≤ 1 ∧ c.directionPolarity.toNat ≤ 1 ∧ c.pinMode.toNat ≤ 1 ∧ c.pullUp.toNat ≤ 1 ∧
      c.switchActive.toNat ≤ 1
    let given : AxisConfig :=
      { enabled := c.enabled == 1#8, softLow := c.softLow.toInt, softHigh := c.softHigh.toInt, home := c.home.toInt
        homeDirection := .known (if c.homeDirection = 0#8 then .negative else .positive), homeSpeed := c.homeSpeed.toNat
        searchTravel := c.searchTravel.toNat, slipTolerance := c.slipTolerance.toNat
        emergencyDeceleration := c.emergencyDeceleration.toNat
        stepPolarity := .known (if c.stepPolarity = 0#8 then .activeHigh else .activeLow)
        directionPolarity := .known (if c.directionPolarity = 0#8 then .highPositive else .lowPositive)
        pinMode := .known (if c.pinMode = 0#8 then .pushPull else .openDrain), pullUp := .known (c.pullUp == 1#8)
        switchActive := .known (if c.switchActive = 0#8 then .high else .low) }
    let entryFits : Prop := e.enabled.toNat ≤ 1 ∧ e.guarded.toNat ≤ 7 ∧ e.condition.toNat ≤ 7 ∧ e.guarded ≠ e.condition ∧
      e.safeLow.toInt ≤ e.safeHigh.toInt ∧ e.windowLow.toInt ≤ e.windowHigh.toInt
    let entry : Interlock :=
      { enabled := e.enabled == 1#8, guarded := e.guarded.toNat, safeLow := e.safeLow.toInt, safeHigh := e.safeHigh.toInt
        condition := e.condition.toNat, windowLow := e.windowLow.toInt, windowHigh := e.windowHigh.toInt }
    (¬ fits → exec (.writeAxis .service n c) s = .next (s.answer .service (.writeAxis .service n c) .badArg)) ∧
    ((15 < n.toNat ∨ ¬ entryFits) →
      exec (.writeInterlock .service n e) s = .next (s.answer .service (.writeInterlock .service n e) .badArg)) ∧
    (∀ a : AxisId, n.toNat = a.val →
      ((s.axis a).state ≠ .faulted →
        (∃ t, exec (.clearFaultAxis .service n) s = .next t ∧
          (t.port .service).response = { status := .done, result := .ok, data := [] } ∧
          (∀ b : AxisId, (t.axis b).config = (s.axis b).config ∧ (t.axis b).claim = (s.axis b).claim) ∧
          t.time = s.time ∧ t.backup = s.backup ∧ t.calendar = s.calendar ∧ t.strikes = s.strikes ∧ t.hammer = s.hammer ∧
          t.channels = s.channels ∧ t.store = s.store ∧ t.pins = s.pins ∧ t.stage.mode = s.stage.mode) ∧
        ((∀ (b : AxisId) (m : PendingMove), (s.axis b).slot = some m → m.held = none) →
          exec (.clearFaultAxis .service n) s = .next (s.answer .service (.clearFaultAxis .service n) .ok))) ∧
      ((s.axis a).state = .faulted → ∃ t, exec (.clearFaultAxis .service n) s = .next t ∧ (t.axis a).state = .unhomed ∧
        (t.axis a).config = (s.axis a).config ∧ (t.axis a).claim = (s.axis a).claim ∧
        (t.port .service).response = { status := .done, result := .ok, data := [] } ∧
        t.time = s.time ∧ t.backup = s.backup ∧ t.calendar = s.calendar ∧ t.strikes = s.strikes ∧ t.hammer = s.hammer ∧
        t.channels = s.channels ∧ t.store = s.store ∧ t.pins = s.pins ∧ t.stage.mode = s.stage.mode) ∧
      (fits → (s.axis a).claim ≠ none →
        exec (.writeAxis .service n c) s = .next (s.answer .service (.writeAxis .service n c) .claimed)) ∧
      (fits → (s.axis a).claim = none → ((s.axis a).inMotion = true ∨ (s.axis a).slot ≠ none) →
        exec (.writeAxis .service n c) s = .next (s.answer .service (.writeAxis .service n c) .busy)) ∧
      (fits → (s.axis a).claim = none → (s.axis a).inMotion = false → (s.axis a).slot = none →
        ∃ t, exec (.writeAxis .service n c) s = .next t ∧ (t.axis a).config = given ∧ (t.axis a).positionValid = false ∧
          (t.axis a).passage = none ∧ (t.axis a).fault = none ∧
          (t.axis a).state = (if c.enabled = 1#8 then .unhomed else .disabled) ∧ (t.axis a).claim = none ∧
          (t.axis a).slot = none ∧
          (∀ b : AxisId, b ≠ a → (t.axis b).config = (s.axis b).config ∧ (t.axis b).claim = (s.axis b).claim) ∧
          (t.port .service).response = { status := .done, result := .ok, data := [] } ∧
          t.axes.interlocks = s.axes.interlocks ∧ t.axes.profiles = s.axes.profiles ∧
          t.time = s.time ∧ t.backup = s.backup ∧ t.calendar = s.calendar ∧ t.strikes = s.strikes ∧
          t.hammer = s.hammer ∧ t.channels = s.channels ∧ t.store = s.store ∧ t.pins = s.pins ∧
          t.stage.mode = s.stage.mode)) ∧
    (∀ k : InterlockId, n.toNat = k.val →
      (entryFits → s.stage.mode ≠ .manual →
        exec (.writeInterlock .service n e) s = .next (s.answer .service (.writeInterlock .service n e) .mode)) ∧
      (entryFits → s.stage.mode = .manual →
        (∃ a : AxisId, (s.axis a).inMotion = true ∨ ∃ m, (s.axis a).slot = some m ∧ m.held ≠ none) →
        exec (.writeInterlock .service n e) s = .next (s.answer .service (.writeInterlock .service n e) .busy)) ∧
      (entryFits → s.stage.mode = .manual →
        (∀ a : AxisId, (s.axis a).inMotion = false ∧ ∀ m, (s.axis a).slot = some m → m.held = none) →
        exec (.writeInterlock .service n e) s =
          .next ((s.modAxes fun y => { y with interlocks := y.interlocks.set k entry }).answer .service
            (.writeInterlock .service n e) .ok)))

/-- A main reset (R5, R19, R181, R183, R194), by RESET_PART, by the return of power or by the RESET input, and the loss of
main power (R17, where the model gives the lost state its reset values at once, log 24): everything outside the backup
domain takes its main-reset value, but for the fault flags, which stay as set until the next LOADING (R180; that they do so
through a loss of main power and a backup reset too is the model's reading, log 35), the mode following the HALT input; the array keeps its bytes but for the page a running
operation spoils; the backup domain, the inputs and the waiting commands stay. A backup reset (R18) also sets the backup
domain. The release of RESET begins the stabilisation interval and changes nothing else. -/
def Obligations.ResetsSetEverythingButTheBackupDomain : Prop :=
  ∀ s : State, Quiet s →
    let fresh (pins : Pins) (backup : Backup) : State :=
      { State.reset with
        pending := s.pending, pins := pins, backup := backup,
        stage := { Stage.initial with mode := if pins.haltIn then .halted else .auto },
        store := { Store.initial s.store.afterCut with
          setupFault := s.store.setupFault, dirFault := s.store.dirFault, tableFault := s.store.tableFault } }
    (Accepts s .service → exec (.resetPart .service) s = .next (fresh s.pins s.backup)) ∧
    exec (.mainReset .powerReturn) s = .next (fresh { s.pins with mainPower := true } s.backup) ∧
    exec (.mainReset .resetInput) s = .next (fresh { s.pins with resetIn := true } s.backup) ∧
    exec .mainPowerLoss s = .next (fresh { s.pins with mainPower := false } s.backup) ∧
    exec .backupReset s = .next (fresh { s.pins with mainPower := true } Backup.initial) ∧
    exec .resetInputDeasserted s =
      .next { s with
        pins := { s.pins with resetIn := false }
        time := { s.time with stabElapsed := if s.pins.resetIn then 0 else s.time.stabElapsed } }

/-! ### Events of the timebase -/

/-- STABILISATION_END (R5, R15, R179), once the interval has run its 16 ms with main power good and RESET released:
the oscillator runs, a backup reset is reported once, and LOADING begins; before that nothing happens.
BLANK_TEST_COMPLETE (R180): the tested page is FREE when it is blank and DIRTY otherwise; the next page that no LIVE
version owns is tested, and behind the last of them the store is READY. READ_COMPLETE of LOADING's own reads (R179): a
page of which bytes are left goes on with its next 64; the setup record, each field that is in range and matches its
complement (R177), goes to its blocks; a directory entry that passes its checks is LIVE; a table page gives its
entries, each out of range disabled with its fields as stored (R32, R78, R122, R125, R145), blank ones where the page is blank or
fails its check; behind page 7, whose delivery makes the outputs driven, the pages of the live versions are LIVE and the blank tests
begin. The addresses of the fields and the page check are those of R198. At the end of LOADING STORE_LOADED is reported, the season
recomputed, the calendar evaluated (R23, R26) and, in AUTO with auto-home on, homing requested of every UNHOMED axis in turn, the
axes that cannot begin being listed (R134).

The model's choices: that a page cut by a main reset always fails its check (log 6); the zeros of a season entry on a page 5 that
fails, of which R32 says only that it is disabled (log 2); that LOADING reads 64 bytes at a time, and of page 0 only the first 64 (log
28); that the blank tests go through the pages in ascending number (log 32). -/
def Obligations.StabilisationAndBlankTests : Prop :=
  ∀ s : State, Quiet s →
    (s.time.osc = .stabilising → s.pins.mainPower = true → s.pins.resetIn = false →
      (s.time.stabElapsed < 1600 → exec .stabilisationEnd s = .next s) ∧
      (1600 ≤ s.time.stabElapsed →
        let u := s.modTime fun t => { t with osc := .running, stabElapsed := 0 }
        exec .stabilisationEnd s =
          .next ((if s.backup.lossToReport then
              (u.report .clockLost none (some 1)).modBackup fun b => { b with lossToReport := false }
            else u).modStore fun x =>
              { x with load := .reading 0 0, ownRead := true, setupFault := false, dirFault := false, tableFault := false }))) ∧
    (∀ (page n : Nat) (f : InFlight), s.running = true → s.store.op = none → s.store.load = .reading page n →
      s.store.path = some f → f.left = 0 → f.who = .store → s.store.waiting = none →
      (∀ k, s.store.array ≠ .suspended k) →
      let pg (k : Nat) : Byte := s.store.nvm.byte (512 * page + k)
      let byte (k : Nat) : Nat := (pg k).toNat
      let passes : Prop := (∀ h : page < 512, s.store.nvm.cut[page] = none) ∧
        byte 510 + 256 * byte 511 = 65535 - ((List.range 510).map byte).sum % 65536
      let on : LoadStep := .reading (page + 1) 0
      (n + 64 < (if page = 0 then 64 else 512) →
        exec .readComplete s = .next (s.modStore fun x =>
          { x with path := none, load := .reading page (n + 64), ownRead := true })) ∧
      (page = 0 →
        let good (k low high : Nat) : Prop := byte k + byte (k + 1) = 255 ∧ low ≤ byte k ∧ byte k ≤ high
        let mask : Prop := byte 22 + byte 24 = 255 ∧ byte 23 + byte 25 = 255
        ∃ t, exec .readComplete s = .next t ∧ t.store.path = none ∧ t.store.load = on ∧ t.store.ownRead = true ∧
          (∀ (p : PortId) (k address : Nat), (p = .venue ∧ k = 0 ∧ address = 0x30) ∨
              (p = .programme ∧ k = 2 ∧ address = 0x31) ∨ (p = .service ∧ k = 4 ∧ address = 0x32) →
            (t.port p).present = true ∧
            (good k 0x08 0x77 → (t.port p).address = byte k) ∧ (¬ good k 0x08 0x77 → (t.port p).address = address) ∧
            ((t.port p).clockHold = true ↔ good (k + 6) 0 1 ∧ byte (k + 6) = 1)) ∧
          (good 12 1 6 → t.store.setup.driveSlots = byte 12) ∧ (¬ good 12 1 6 → t.store.setup.driveSlots = 4) ∧
          t.hammer.slots = List.replicate t.store.setup.driveSlots none ∧
          (good 14 0 30 → t.store.setup.slipAllowance = byte 14) ∧ (¬ good 14 0 30 → t.store.setup.slipAllowance = 15) ∧
          (good 16 1 255 → t.store.setup.holdTimeout = byte 16) ∧ (¬ good 16 1 255 → t.store.setup.holdTimeout = 30) ∧
          (good 18 1 60 → t.store.setup.freezeLimit = byte 18) ∧ (¬ good 18 1 60 → t.store.setup.freezeLimit = 10) ∧
          (t.store.setup.autoHome = false ↔ good 20 0 1 ∧ byte 20 = 0) ∧
          (mask → t.store.setup.protection.toNat = byte 22 + 256 * byte 23) ∧ (¬ mask → t.store.setup.protection = 0#16) ∧
          (t.store.setupFault = false ↔ s.store.nvm.cut[0] = none ∧ good 0 0x08 0x77 ∧ good 2 0x08 0x77 ∧
            good 4 0x08 0x77 ∧ good 6 0 1 ∧ good 8 0 1 ∧ good 10 0 1 ∧ good 12 1 6 ∧ good 14 0 30 ∧ good 16 1 255 ∧
            good 18 1 60 ∧ good 20 0 1 ∧ mask) ∧
          t.store.nvm = s.store.nvm ∧ t.store.map = s.store.map ∧ t.store.dir = s.store.dir ∧ t.time = s.time ∧
          t.backup = s.backup ∧ t.calendar = s.calendar ∧ t.axes = s.axes ∧ t.strikes = s.strikes ∧ t.stage = s.stage) ∧
      (page = 1 ∨ page = 2 → 512 ≤ n + 64 →
        (¬ passes → exec .readComplete s = .next (s.modStore fun x =>
          { x with path := none, dirFault := true, load := on, ownRead := true })) ∧
        (passes → ∃ t, exec .readComplete s = .next t ∧
          let o (g : ProgId) : Nat := 12 * (g.val % 32)
          let v (g : ProgId) : Version :=
            { version := numberAt pg 2 (o g + 1), firstPage := numberAt pg 2 (o g + 3), pageCount := numberAt pg 1 (o g + 5)
              cueCount := numberAt pg 2 (o g + 6), axisMask := pg (o g + 8), priority := numberAt pg 1 (o g + 9)
              latestStart := numberAt pg 2 (o g + 10), references := 0 }
          let live (g : ProgId) : Prop :=
            1 ≤ (v g).version ∧ 8 ≤ (v g).firstPage ∧ 1 ≤ (v g).cueCount ∧ (v g).cueCount ≤ 4092 ∧
            (v g).priority ≤ 7 ∧ (v g).latestStart ≤ 600 ∧
            (v g).pageCount = (32 + 8 * (v g).cueCount + 511) / 512 ∧ (v g).firstPage + (v g).pageCount ≤ 512 ∧
            ∀ (h : ProgId) (w : Version), h < g → t.live? h = some w →
              (v g).firstPage + (v g).pageCount ≤ w.firstPage ∨ w.firstPage + w.pageCount ≤ (v g).firstPage
          (∀ g : ProgId, (g.val / 32 + 1 ≠ page ∨ pg (o g) ≠ 1#8) → t.dirEntry g = s.dirEntry g) ∧
          (∀ g : ProgId, g.val / 32 + 1 = page → pg (o g) = 1#8 →
            (live g → t.dirEntry g = { live := some (v g), retiring := none }) ∧
            (¬ live g → t.dirEntry g = s.dirEntry g)) ∧
          (t.store.dirFault = true ↔ s.store.dirFault = true ∨
            ∃ g : ProgId, g.val / 32 + 1 = page ∧ pg (o g) = 1#8 ∧ ¬ live g) ∧
          t = { s with store := { s.store with path := none, load := on, ownRead := true, dir := t.store.dir,
                                               dirFault := t.store.dirFault } })) ∧
      (∀ q : Nat, 3 ≤ page → page ≤ 7 → 512 ≤ n + 64 →
        let mapped (m : Nat) : Prop := s.pageState m = some .live ∨
          ∃ (g : ProgId) (v : Version), s.live? g = some v ∧ v.firstPage ≤ m ∧ m < v.firstPage + v.pageCount
        (page = 7 → 8 ≤ q ∧ q < 512 ∧ ¬ mapped q ∧ ∀ m, 8 ≤ m → m < q → mapped m) →
        ∃ t, exec .readComplete s = .next t ∧
        (t.store.tableFault = true ↔ s.store.tableFault = true ∨ ¬ passes) ∧ t.store.path = none ∧
        (page < 7 → t.store.load = on ∧ t.store.ownRead = true ∧ t.store.map = s.store.map) ∧
        (page = 7 → t.store.load = .testing q ∧ t.store.blankLeft = some 75 ∧
          ∀ m, 8 ≤ m → m < 512 → (mapped m → t.pageState m = some .live) ∧
            (¬ mapped m → t.pageState m = s.pageState m)) ∧
        (∀ k : CalId, (k.val / 32 + 3 ≠ page → t.calendar.entries[k] = s.calendar.entries[k]) ∧
          (k.val / 32 + 3 = page →
            (passes → t.calendar.entries[k] = calendarAt pg (15 * (k.val % 32))) ∧
            (¬ passes → t.calendar.entries[k] =
              { enabled := false, programme := 0, kind := .dailyAt, hour := 0, minute := 0, hourlyMinute := 0, firstHour := 0
                lastHour := 0, interval := 0, windowFirst := 0, windowLast := 0, weekdays := 0#8, seasons := 0#16, priority := 0
                silent := .play }))) ∧
        (∀ k : SeasonId, (page ≠ 5 → t.calendar.seasons[k] = s.calendar.seasons[k]) ∧
          (page = 5 → (passes → t.calendar.seasons[k] = seasonAt pg (7 * k.val)) ∧
            (¬ passes → t.calendar.seasons[k] =
              { enabled := false, startMonth := 0, startDay := 0, endMonth := 0, endDay := 0, seasonId := 0, rank := 0 }))) ∧
        (∀ k : ProfileId, (page ≠ 6 → t.axes.profiles[k] = s.axes.profiles[k]) ∧
          (page = 6 → (passes → t.axes.profiles[k] = profileAt pg (10 * k.val)) ∧
            (¬ passes → t.axes.profiles[k] = { maxSpeed := 50, acceleration := 10, deceleration := 10 }))) ∧
        (∀ k : InterlockId, (page ≠ 6 → t.axes.interlocks[k] = s.axes.interlocks[k]) ∧
          (page = 6 → (passes → t.axes.interlocks[k] = interlockAt pg (160 + 11 * k.val)) ∧
            (¬ passes → t.axes.interlocks[k] =
              { enabled := false, guarded := 0, safeLow := 0, safeHigh := 0, condition := 0, windowLow := 0, windowHigh := 0 }))) ∧
        (∀ b : BellId, (page ≠ 7 → t.bell b = s.bell b) ∧
          (page = 7 → (passes → t.bell b = bellAt pg (12 * b.val) (s.bell b).guardEnd) ∧
            (¬ passes → t.bell b =
              { state := .disabled, driveMin := 20, driveMax := 20, recover := 0, flightInit := 100, flight := 100
                velocityCap := 1, outputPolarity := .known .activeHigh, contactPolarity := .known .activeHigh, misses := 0
                launched := 0, guardEnd := none }))) ∧
        (∀ a : AxisId, (page ≠ 7 → t.axis a = s.axis a) ∧
          (page = 7 →
            let given (c : AxisConfig) : Axis :=
              { s.axis a with config := c, state := if c.enabled then .unhomed else .disabled }
            (passes → t.axis a = given (axisConfigAt pg (288 + 22 * a.val))) ∧
            (¬ passes → t.axis a = given
              { enabled := false, softLow := -32768, softHigh := 32767, home := 0, homeDirection := .known .negative
                homeSpeed := 1, searchTravel := 1, slipTolerance := 0, emergencyDeceleration := 10
                stepPolarity := .known .activeHigh, directionPolarity := .known .highPositive, pinMode := .known .pushPull
                pullUp := .known false, switchActive := .known .high }))) ∧
        t.hammer = { s.hammer with outputsOn := if page = 7 then true else s.hammer.outputsOn } ∧
        t.store.nvm = s.store.nvm ∧ t.store.dir = s.store.dir ∧ t.store.setup = s.store.setup ∧ t.time = s.time ∧
        t.backup = s.backup ∧ t.ports = s.ports ∧ t.stage = s.stage ∧ t.pins = s.pins)) ∧
    ∀ p : Nat, 8 ≤ p → p < 512 → s.running = true → s.store.load = .testing p → s.store.blankLeft = some 0 →
      let u := s.setPage p (if s.store.nvm.isBlank p then .free else .dirty)
      (∀ n : Nat, u.pageState n = if n = p then some (if s.store.nvm.isBlank p then .free else .dirty) else s.pageState n) ∧
      (ArrayCanonical s → ∀ h : p < 512, (s.store.nvm.isBlank p = true ↔
        s.store.nvm.cut[p] = none ∧ s.store.nvm.written[p] = false ∧ ∀ k < 512, s.store.nvm.byte (512 * p + k) = 0xFF#8)) ∧
      (∀ q : Nat, p < q → q < 512 → s.pageState q ≠ some .live →
        (∀ r, p < r → r < q → s.pageState r = some .live) →
        exec .blankTestComplete s =
          .next (u.modStore fun x => { x with load := .testing q, blankLeft := some 75 })) ∧
      ((∀ q, p < q → q < 512 → s.pageState q = some .live) →
        ∃ t, exec .blankTestComplete s = .next t ∧ t.store.load = .done ∧ t.store.blankLeft = none ∧
          t.store.ready = true ∧ t.store.nvm = s.store.nvm ∧ t.time = s.time ∧ t.pins = s.pins ∧
          t.backup = { s.backup with stamps := t.backup.stamps } ∧
          ((∀ k : CalId, (s.calendar.entries[k]).enabled = false) → ∀ n, t.pageState n = u.pageState n)) ∧
      ((∀ q, p < q → q < 512 → s.pageState q = some .live) →
        let faults : Nat := (if s.store.setupFault then 1 else 0) + 2 * (if s.store.dirFault then 1 else 0) +
          4 * (if s.store.tableFault then 1 else 0)
        let loaded := (u.modStore fun x => { x with ready := true, load := .done, blankLeft := none }).report .storeLoaded none
          (some faults) (some (allProgs.filter fun g => (s.live? g).isSome).length)
        let seasoned := loaded.setSeason (if s.backup.validity = .valid then
          seasonEntryOf s.calendar.seasons (wallFields s.backup.wallMs).date else none)
        let evaluated := allCals.foldl (fun x k => x.evaluateEntry s.backup.wallMs k) seasoned
        let asked (x : State) (a : AxisId) : State :=
          if (x.axis a).state ≠ .unhomed then x
          else if x.mayHome a then x.homingBegun a .automatic
          else x.modStage fun g => { g with startup := g.startup ++ [a] }
        exec .blankTestComplete s =
          .next ((if evaluated.store.setup.autoHome = true ∧ evaluated.stage.mode = .auto then allAxes.foldl asked evaluated
            else evaluated).close))

/-- SLEW_PERIOD_END (R12): after 100 ms of a slew the remainder moves by one towards 0, the clock advancing by 2 ms or not
at all. MINUTE_BOUNDARY (R8): the clock enters the new minute; with no calendar entry enabled, that and the season of a new
day are all that happens. CENTURY_ROLLOVER (R9): the clock reads 2000-01-01 00:00:00.000 and is INVALID, any slew is over,
and the season is 0; CLOCK_LOST with reason RANGE is reported, before SEASON_CHANGED (that order is the model's choice, log 23,
and so is that nothing is reported while the main oscillator does not run, log 19), and the boundary is delivered as any
other. The clock at which the boundary is taken is the model's (log 3). -/
def Obligations.ClockEventsMoveTheClock : Prop :=
  ∀ s : State, Quiet s →
    ((s.backup.slewRemainder = 0 ∨ s.backup.slewElapsed < 10000) → exec .slewPeriodEnd s = .next s) ∧
    (s.backup.slewRemainder < 0 → 10000 ≤ s.backup.slewElapsed →
      exec .slewPeriodEnd s =
        .next (s.modBackup fun b => { b with slewElapsed := 0, slewRemainder := b.slewRemainder + 1 })) ∧
    (0 < s.backup.slewRemainder → 10000 ≤ s.backup.slewElapsed →
      exec .slewPeriodEnd s = .next (s.modBackup fun b =>
        if (b.wallMs + 2) / 60000 = b.wallMs / 60000 then
          { b with slewElapsed := 0, slewRemainder := b.slewRemainder - 1, wallMs := b.wallMs + 2 }
        else { b with slewElapsed := 0, slewRemainder := b.slewRemainder - 1, boundaryAhead := 2 })) ∧
    (0 < s.backup.boundaryAhead → s.backup.wallMs + s.backup.boundaryAhead < 3155760000000 →
      let now := s.backup.wallMs + s.backup.boundaryAhead
      let u := s.modBackup fun b => { b with wallMs := now, boundaryAhead := 0 }
      ((s.running = false ∨ s.store.ready = false) → exec .minuteBoundary s = .next u) ∧
      (s.running = true → s.store.ready = true →
        (∃ t, exec .minuteBoundary s = .next t ∧
          t.backup = { s.backup with wallMs := now, boundaryAhead := 0, stamps := t.backup.stamps } ∧
          t.time = s.time ∧ t.pins = s.pins ∧ t.store.nvm = s.store.nvm) ∧
        ((∀ k : CalId, (s.calendar.entries[k]).enabled = false) →
          exec .minuteBoundary s =
            .next (if now / 60000 % 1440 = 0 then
              u.setSeason (if s.backup.validity = .valid then
                seasonEntryOf s.calendar.seasons (wallFields now).date else none)
              else u)))) ∧
    (0 < s.backup.boundaryAhead → 3155760000000 ≤ s.backup.wallMs + s.backup.boundaryAhead →
      (let u := s.modBackup fun b =>
          { b with wallMs := 0, boundaryAhead := 0, validity := .invalid, slewRemainder := 0, slewElapsed := 0 }
        let told := (u.report .clockLost none (some 0)).setSeason none
        (s.running = false → exec .centuryRollover s = .next u) ∧
        (s.running = true → (s.store.ready = false ∨ ∀ k : CalId, (s.calendar.entries[k]).enabled = false) →
          exec .centuryRollover s = .next told) ∧
        (s.running = true → s.store.ready = true →
          exec .centuryRollover s = .next (allCals.foldl (fun x k => x.evaluateEntry 0 k) told).close)) ∧
      ∃ t, exec .centuryRollover s = .next t ∧
        t.backup = { s.backup with wallMs := 0, boundaryAhead := 0, validity := .invalid, slewRemainder := 0,
                                   slewElapsed := 0, stamps := t.backup.stamps } ∧
        (s.running = true → t.calendar.active = 0 ∧ t.calendar.activeEntry = none) ∧
        t.calendar.entries = s.calendar.entries ∧ t.calendar.seasons = s.calendar.seasons ∧
        t.time = s.time ∧ t.pins = s.pins ∧ t.shows = s.shows ∧ t.channels = s.channels ∧ t.strikes = s.strikes ∧
        t.hammer = s.hammer ∧ t.axes = s.axes ∧ t.stage = s.stage ∧ t.store = s.store)

/-- SHOW_TICK (R47, R48): a WAITING player's waiting grows by one; a RUNNING, WAITING or DRAINING player's show time is the
show ticks since its start less its waiting; a PRIMING player starts once its FIFO holds 8 cues or its channel is AT_END, when
that channel has no read to come (EveryStepKeepsTheFifoLaw).
The only player RUNNING dispatches its one cue, of a channel that asks for nothing by it, at its threshold (R49 to R51, R53,
R55): a strike or roll goes to the scheduler with its sound time, a move waits for its slot, is skipped, or is placed in it
with its due time, a WAIT_AXIS waits for an axis that is not free, a MARK is reported, an END drains the player; before it
nothing is dispatched. (That an await byte other than 0 and 1 makes no player wait, log 12, and the show time of a player
that drains from PRIMING, log 27, are the model's choices.) While FROZEN no show tick is taken (R76); that one due as the
FREEZE is taken waits for the end of the freeze is the model's choice (log 31). With several players and cues, the players take the tick in
ascending order (the model's choice, log 23), each dispatching one due cue after another (R49), but none behind an awaited move
in that tick, though the move has ended (the model's choice, log 18); an END's channel keeps its script and next record (the
model's choice, log 22), and head due stays as it was where no cue is left (the model's reading, log 21); each cue of any FIFO has the effect said above, the next
cue becoming the head with its due time. MOTION_TICK (R2, R117): the supply is sampled, a FROZEN part counts a millisecond of
its frozen duration, an axis at rest with an empty slot stays as it is, and each axis that is MOVING, STOPPING or HOMING
takes the arithmetic of the tick (MotionTickArithmetic) and its first step (TickRunsTheTimebase), after the sample and in ascending
order (the model's choice too, log 23). -/
def Obligations.ShowAndMotionTicks : Prop :=
  ∀ s : State, Awake s →
    (s.time.showTickDue = true → s.time.frozen = false → ∃ t, exec .showTick s = .next t ∧ t.time = { s.time with showTickDue := false } ∧
      (∀ p : PlayerId,
        ((s.player p).state = .waiting → (t.player p).waiting = (s.player p).waiting + 1 ∧
          (t.player p).showTime = (s.time.stageTime - (s.player p).start) / 100 - ((s.player p).waiting + 1)) ∧
        (((s.player p).state = .running ∨ (s.player p).state = .draining) →
          (t.player p).waiting = (s.player p).waiting ∧
          (t.player p).showTime = (s.time.stageTime - (s.player p).start) / 100 - (s.player p).waiting) ∧
        ((s.player p).state = .priming →
          (8 ≤ (s.channel p).fifo.length ∨ ((s.channel p).state = .atEnd ∧ (s.channel p).read = .none)) →
          (t.player p).state ≠ .priming ∧ (t.player p).start = s.time.stageTime ∧ (t.player p).showTime = 0) ∧
        ((s.player p).state = .priming → (s.channel p).fifo.length < 8 → (s.channel p).state ≠ .atEnd →
          (t.player p).state = .priming) ∧
        ((s.player p).state = .idle → (t.player p).state = .idle) ∧
        (t.player p).programme = (s.player p).programme ∧ (t.player p).version = (s.player p).version) ∧
      (∀ a : AxisId, (t.axis a).config = (s.axis a).config ∧ (t.axis a).claim = (s.axis a).claim) ∧
      t.backup = s.backup ∧ t.pins = s.pins ∧ t.calendar = s.calendar ∧ t.hammer = s.hammer ∧
      t.shows.queue = s.shows.queue ∧ t.stage.mode = s.stage.mode ∧ t.store.nvm = s.store.nvm ∧
      t.store.dir = s.store.dir) ∧
    (s.time.motionTickDue = true → ∀ r : BitVec 9, ∃ t, exec (.motionTick r) s = .next t ∧
      t.time = { s.time with motionTickDue := false,
                             frozenMs := if s.time.frozen then s.time.frozenMs + 1 else s.time.frozenMs } ∧
      t.pins = { s.pins with rail := r.toNat } ∧ t.hammer.uRaw = r.toNat ∧
      (t.hammer.supplyRange = true ↔ r.toNat < 200 ∨ 280 < r.toNat) ∧
      t.hammer.counters.supplyExcursions =
        (if t.hammer.supplyRange = true ∧ s.hammer.supplyRange = false then sat32 s.hammer.counters.supplyExcursions
         else s.hammer.counters.supplyExcursions) ∧
      t.hammer.hammers = s.hammer.hammers ∧ t.hammer.slots = s.hammer.slots ∧
      (∀ a : AxisId, (t.axis a).config = (s.axis a).config ∧ (t.axis a).claim = (s.axis a).claim ∧
        ((s.axis a).inMotion = false → (s.axis a).slot = none → t.axis a = s.axis a)) ∧
      t.backup = s.backup ∧ t.calendar = s.calendar ∧ t.strikes = s.strikes ∧ t.channels = s.channels ∧
      t.store = s.store ∧ t.shows.queue = s.shows.queue ∧ t.stage.mode = s.stage.mode) ∧
    (s.time.motionTickDue = true → ∀ r : BitVec 9,
      let sampled := ({ s with pins := { s.pins with rail := r.toNat } }.modTime fun t =>
        { t with motionTickDue := false, frozenMs := if t.frozen then t.frozenMs + 1 else t.frozenMs }).sampleSupply r.toNat
      exec (.motionTick r) s = .next ((allAxes.foldl (fun u a =>
        if (u.axis a).state = .moving ∨ (u.axis a).state = .stopping ∨ (u.axis a).state = .homing then
          (u.modAxis a Axis.motionArith).stepAxis a
        else u) sampled).close)) ∧
    (s.time.showTickDue = true → s.time.frozen = false →
      exec .showTick s =
        .next ((allPlayers.foldl State.playerTick (s.modTime fun t => { t with showTickDue := false })).close)) ∧
    (∀ (p : PlayerId) (u : State),
      let began := (u.modPlayer p fun x => x.clockTick u.time.stageTime).startPlaying p
      u.playerTick p = (dispatchCues p ((began.channel p).fifo.length + 1) began).modPlayer p (fun x =>
        if x.state = .running ∧ x.awaited ≠ none ∧ x.awaitDue.any (fun d => decide (d ≤ x.showTime)) = true ∧
            x.awaitOver = false then
          { x with state := .waiting, reason := some .await }
        else x) ∧
      (∀ n : Nat, ((u.channel p).fifo = [] ∨ (u.player p).state ≠ .running ∨ (u.player p).awaited ≠ none) →
        dispatchCues p n u = u) ∧
      ∀ (q : FifoCue) (rest : List FifoCue), (u.channel p).fifo = q :: rest →
        let due := (u.player p).headDue
        let handed : Nat := match q.cue with
          | .strike _ _ | .roll _ _ _ _ _ | .move _ _ _ _ => due - 100
          | _ => due
        ((u.player p).showTime < handed → ∀ n : Nat, dispatchCues p n u = u) ∧
        ((u.player p).state = .running → (u.player p).awaited = none → handed ≤ (u.player p).showTime →
          ∀ n : Nat, dispatchCues p (n + 1) u = dispatchCues p n (u.dispatchCue p q.cue due)) ∧
        let instant := (u.player p).start + (due + (u.player p).waiting) * 100
        let gone := ((u.modChannel p fun c => { c with fifo := rest }).modPlayer p fun x =>
          { x with
            headStarved := false
            lastDue := (rest.head?.map fun y => x.lastDue + y.delta).getD x.lastDue
            headDue := (rest.head?.map fun y => x.lastDue + y.delta).getD x.headDue
            counters := { x.counters with
              dispatched := sat32 x.counters.dispatched
              starved := if x.headStarved then sat32 x.counters.starved else x.counters.starved } }).testDispatch p
        (∀ bell v : Nat, u.dispatchCue p (.strike bell v) due = (gone.offerStrike bell v instant (some p) none).1) ∧
        (∀ bell v i j n : Nat, u.dispatchCue p (.roll bell v i j n) due = gone.rollCue p bell v i j n instant) ∧
        (∀ m : Nat, u.dispatchCue p (.mark m) due =
          gone.report .marker (some (.player p.val)) (some m) (some (u.player p).programme)) ∧
        u.dispatchCue p .endShow due = (gone.modPlayer p fun x =>
          { x with state := .draining, outcome := some .completed, reason := none, awaited := none, deadline := none,
                   headStarved := false, awaitDue := none, awaitOver := false }).stopChannel p ∧
        (∀ (a : AxisId) (timeout : Nat), u.dispatchCue p (.waitAxis a.val timeout) due =
          if (u.axis a).state = .idle ∧ (u.axis a).slot = none then gone
          else gone.modPlayer p fun x =>
            { x with state := .waiting, reason := some .waitAxis, awaited := some a,
                     deadline := some (u.time.stageTime + timeout * 100000) }) ∧
        ∀ (a : AxisId) (target : Int) (r : ProfileId) (await : Nat), (u.axis a).claim = some p →
          let takes := (u.axis a).state = .idle ∨ (u.axis a).state = .moving ∨ (u.axis a).state = .stopping
          let got : Int := max (u.axis a).config.softLow (min target (u.axis a).config.softHigh)
          (¬ takes → u.dispatchCue p (.move a.val target r.val await) due = gone.modPlayer p fun x =>
            { x with counters := { x.counters with movesSkipped := sat32 x.counters.movesSkipped } }) ∧
          (takes → (u.axis a).slot ≠ none → u.dispatchCue p (.move a.val target r.val await) due = u.modPlayer p fun x =>
            { x with state := .waiting, reason := some .slot, awaited := some a }) ∧
          (takes → (u.axis a).slot = none → u.dispatchCue p (.move a.val target r.val await) due =
            (((if await = 1 then gone.modPlayer p fun x =>
                { x with awaited := some a, awaitDue := some due, awaitOver := false } else gone).modAxis a fun x =>
              { x with slot := some { target := got, clamped := got != target, profile := r, due := instant,
                                      owner := .player p, held := none } }).testMove a))) ∧
    (s.time.showTickDue = false ∨ s.time.frozen = true → exec .showTick s = .next s) ∧
    (s.time.motionTickDue = false → ∀ r : BitVec 9, exec (.motionTick r) s = .next s) ∧
    (∀ (p : PlayerId) (q : FifoCue) (due : Nat), s.time.showTickDue = true → s.time.frozen = false →
      (s.player p).state = .running →
      (∀ r : PlayerId, r ≠ p → (s.player r).state = .idle) → (s.player p).awaited = none →
      (s.channel p).fifo = [q] → (s.player p).headDue = due →
      ((s.channel p).state ≠ .fetching ∨ (s.channel p).read ≠ .none) →
      let now := (s.time.stageTime - (s.player p).start) / 100 - (s.player p).waiting
      let instant := (s.player p).start + (due + (s.player p).waiting) * 100
      let ticked := (s.modTime fun t => { t with showTickDue := false }).modPlayer p fun x => { x with showTime := now }
      let gone := (ticked.modChannel p fun c => { c with fifo := [] }).modPlayer p fun x =>
        { x with headStarved := false,
                 counters := { x.counters with
                   dispatched := sat32 x.counters.dispatched,
                   starved := if x.headStarved then sat32 x.counters.starved else x.counters.starved } }
      (∀ bell v : Nat, q.cue = .strike bell v →
        (now + 100 < due → exec .showTick s = .next ticked) ∧
        (due ≤ now + 100 → exec .showTick s = .next (gone.offerStrike bell v instant (some p) none).1)) ∧
      (∀ bell v i j n : Nat, q.cue = .roll bell v i j n →
        (now + 100 < due → exec .showTick s = .next ticked) ∧
        (due ≤ now + 100 → exec .showTick s = .next (gone.rollCue p bell v i j n instant))) ∧
      (∀ (a : AxisId) (target : Int) (r : ProfileId) (await : Nat), q.cue = .move a.val target r.val await →
        (s.axis a).claim = some p →
        (now + 100 < due → exec .showTick s = .next ticked) ∧
        (due ≤ now + 100 →
          (((s.axis a).state = .unhomed ∨ (s.axis a).state = .homing ∨ (s.axis a).state = .faulted ∨
              (s.axis a).state = .disabled) →
            exec .showTick s = .next (gone.modPlayer p fun x =>
              { x with counters := { x.counters with movesSkipped := sat32 x.counters.movesSkipped } })) ∧
          (((s.axis a).state = .idle ∨ (s.axis a).state = .moving ∨ (s.axis a).state = .stopping) →
            (s.axis a).slot ≠ none →
            exec .showTick s = .next (ticked.modPlayer p fun x =>
              { x with state := .waiting, reason := some .slot, awaited := some a })) ∧
          (((s.axis a).state = .moving ∨ (s.axis a).state = .stopping ∨
              ((s.axis a).state = .idle ∧ s.time.stageTime < instant)) → (s.axis a).slot = none →
            let got : Int := max (s.axis a).config.softLow (min target (s.axis a).config.softHigh)
            exec .showTick s = .next ((gone.modPlayer p fun x =>
                if await = 1 then
                  { x with awaited := some a, awaitDue := some due, awaitOver := false,
                           state := if due ≤ now then .waiting else .running,
                           reason := if due ≤ now then some .await else x.reason }
                else x).modAxis a fun x =>
              { x with slot := some { target := got, clamped := got != target, profile := r, due := instant,
                                      owner := .player p, held := none } })))) ∧
      (∀ (a : AxisId) (timeout : Nat), q.cue = .waitAxis a.val timeout →
        (now < due → exec .showTick s = .next ticked) ∧
        (due ≤ now →
          ((s.axis a).state = .idle → (s.axis a).slot = none → exec .showTick s = .next gone) ∧
          (((s.axis a).state ≠ .idle ∨ (s.axis a).slot ≠ none) →
            exec .showTick s = .next (gone.modPlayer p fun x =>
              { x with state := .waiting, reason := some .waitAxis, awaited := some a,
                       deadline := some (s.time.stageTime + timeout * 100000) })))) ∧
      (∀ m : Nat, q.cue = .mark m →
        (now < due → exec .showTick s = .next ticked) ∧
        (due ≤ now → exec .showTick s =
          .next (gone.report .marker (some (.player p.val)) (some m) (some (s.player p).programme)))) ∧
      (q.cue = .endShow →
        (now < due → exec .showTick s = .next ticked) ∧
        (due ≤ now → (∀ n, s.store.array ≠ .suspended n) →
          exec .showTick s = .next ((gone.modPlayer p fun x =>
              { x with state := .draining, outcome := some .completed, reason := none, awaited := none, deadline := none,
                       awaitDue := none, awaitOver := false }).modChannel p fun c =>
            { c with state := .idle, fifo := [], loops := [], read := .none, asking := false }))))

/-! ### Events of the shows -/

/-- The ends of a player's waits (R51 to R53). WAIT_AXIS_END once the axis is IDLE with an empty slot, AWAIT_END once the
awaited move has ended: the player is RUNNING with nothing awaited, and nothing else changes. SLOT_WAIT_END once the slot
has emptied and FROZEN is clear (R76; that the wait goes on to the end of the freeze is the model's reading, log 31): the held
MOVE leaves the FIFO, placed on an axis that takes moves, skipped on one that does not; on an IDLE axis
it stays in the slot until it is due, and when due starts, arrives at once or is held (R127, R148).
WAIT_TIMEOUT at the deadline reports and counts besides. -/
def Obligations.WaitsEnd : Prop :=
  ∀ (p : PlayerId) (a : AxisId) (s : State), s.running = true → (s.player p).awaited = some a →
    let again (x : Player) : Player :=
      { x with state := .running, reason := none, awaited := none, deadline := none, awaitDue := none, awaitOver := false }
    ((s.player p).state = .waiting → (s.player p).reason = some .waitAxis → (s.axis a).state = .idle →
      (s.axis a).slot = none → exec (.waitAxisEnd p) s = .next (s.modPlayer p again)) ∧
    (((s.player p).state = .running ∨ (s.player p).state = .waiting) → (s.player p).awaitOver = true →
      exec (.awaitEnd p) s = .next (s.modPlayer p again)) ∧
    (∀ d : Nat, Quiet s → (s.player p).state = .waiting → (s.player p).reason = some .waitAxis →
      (s.player p).deadline = some d → d ≤ s.time.stageTime →
      exec (.waitTimeout p) s =
        .next ((s.report .waitTimeout (some (.player p.val)) (some a.val) (some (s.player p).programme)).modPlayer p
          fun x => { again x with counters := { x.counters with waitTimeouts := sat32 x.counters.waitTimeouts } })) ∧
    (s.time.frozen = true → exec (.slotWaitEnd p) s = .next s) ∧
    (∀ (delta due profile await : Nat) (target : Int) (q : List FifoCue),
      s.time.frozen = false → (s.player p).state = .waiting → (s.player p).reason = some .slot → (s.axis a).slot = none →
      (s.channel p).fifo = { delta := delta, cue := .move a.val target profile await } :: q →
      (s.player p).headDue = due → (s.axis a).claim = some p → profile ≤ 15 →
      ∃ t, exec (.slotWaitEnd p) s = .next t ∧ (t.player p).state = .running ∧ (t.channel p).fifo = q ∧
        (t.player p).counters.dispatched = sat32 (s.player p).counters.dispatched ∧
        (((s.axis a).state = .unhomed ∨ (s.axis a).state = .homing ∨ (s.axis a).state = .faulted ∨
            (s.axis a).state = .disabled) →
          (t.axis a).slot = none ∧
          (t.player p).counters.movesSkipped = sat32 (s.player p).counters.movesSkipped) ∧
        (((s.axis a).state = .moving ∨ (s.axis a).state = .stopping) →
          ∃ m, (t.axis a).slot = some m ∧ m.owner = .player p ∧ m.profile.val = profile ∧ m.held = none ∧
            m.due = (s.player p).start + (due + (s.player p).waiting) * 100 ∧
            m.target = max (s.axis a).config.softLow (min target (s.axis a).config.softHigh)) ∧
        (∀ r : ProfileId, r.val = profile → (s.axis a).state = .idle → s.todo = Todo.none →
          let got : Int := max (s.axis a).config.softLow (min target (s.axis a).config.softHigh)
          let m : PendingMove :=
            { target := got, clamped := got != target, profile := r,
              due := (s.player p).start + (due + (s.player p).waiting) * 100, owner := .player p, held := none }
          let u := s.modAxis a fun x => { x with slot := some m }
          ((s.time.stageTime < m.due ∨ s.stage.mode = .halted) →
            (t.axis a).state = .idle ∧ (t.axis a).slot = some m) ∧
          (m.due ≤ s.time.stageTime → s.stage.mode ≠ .halted →
            (u.obstacle a got ≠ none → (t.axis a).state = .idle ∧
              (t.axis a).slot = some { m with held := some s.time.stageTime }) ∧
            (u.obstacle a got = none → (t.axis a).slot = none ∧ (t.axis a).target = got ∧
              (t.axis a).owner = .player p ∧ (t.axis a).state = if (s.axis a).position = got then .idle else .moving))) ∧
        t.time = s.time ∧ t.backup = s.backup ∧ t.calendar = s.calendar ∧ t.hammer = s.hammer ∧
        t.strikes = s.strikes ∧ t.pins = s.pins ∧ t.shows.queue = s.shows.queue ∧ t.stage.mode = s.stage.mode ∧
        t.store.nvm = s.store.nvm)

/-- START_EXPIRED takes the first expired entry off the queue (R38) and owes an attempt; that entries expiring together go
in queue order, with an attempt behind each, is the model's choice (log 23). An ADMISSION_ATTEMPT (R40 to R44) over an empty
queue changes nothing; a queued start of no live programme fails; one that can start is PRIMING on the lowest IDLE player
(with a show time of 0 while it primes: the model's choice, log 27), which claims the axes of the version's mask and pins it. With no pending move about, no entry that an attempt leaves queued could
start after it. An entry that is blocked by claims (read as log 26 says) and can be let start by the release of a player of
lower priority aborts the one of lowest priority, of the most recent admission, unless a player already drains for it (R43);
an UNHOMED axis it needs is homed in AUTO under auto-home (R42). A PLAYER_RELEASE (R59) of a player with nothing left to settle frees its
claims, drops its reference (R170, R171), counts the show ended, and owes an attempt. -/
def Obligations.StartsAndReleases : Prop :=
  ∀ s : State, s.running = true →
    (∀ (pre post : List StartEntry) (e : StartEntry), Quiet s → s.shows.queue = pre ++ e :: post →
      (∀ x ∈ pre, s.time.stageTime ≤ x.expiry) → e.expiry < s.time.stageTime →
      exec .startExpired s =
        .next ((((s.modShows fun b => { b with queue := pre ++ post }).report .startExpired
          (some (.programme e.programme.number)) (some e.source.code) (some e.priority)).countShow
            fun c => { c with expired := sat32 c.expired }).oweAttempt)) ∧
    (s.todo = { Todo.none with attempt := true } →
      (s.shows.queue = [] → exec .admissionAttempt s = .next { s with todo := Todo.none }) ∧
      ∀ e : StartEntry, s.shows.queue = [e] →
        (s.live? e.programme = none →
          exec .admissionAttempt s =
            .next ((((s.modTodo fun _ => Todo.none).report .startFailed (some (.programme e.programme.number)) (some 0)
              (some e.source.code)).countShow fun c => { c with failedNotFound := sat32 c.failedNotFound }).modShows
                fun b => { b with queue := [] })) ∧
        ∀ (v : Version) (p : PlayerId), s.live? e.programme = some v → (s.player p).state = .idle →
          (∀ q : PlayerId, q < p → (s.player q).state ≠ .idle) →
          (s.stage.mode = .auto ∨ (s.stage.mode = .manual ∧ e.source = .service)) → s.time.stageTime ≤ e.expiry →
          (∀ a : AxisId, v.axisMask.getLsbD a.val = true →
            (s.axis a).claim = none ∧ (s.axis a).state = .idle ∧ (s.axis a).slot = none) →
          ∃ t, exec .admissionAttempt s = .next t ∧ t.shows.queue = [] ∧
            t.shows.admissions = s.shows.admissions + 1 ∧
            t.shows.counters.admitted = sat32 s.shows.counters.admitted ∧
            t.player p = { Player.initial with
              state := .priming, programme := e.programme.number, version := v.version, priority := e.priority,
              source := e.source.code, admission := s.shows.admissions + 1 } ∧
            (t.channel p).firstPage = v.firstPage ∧ (t.channel p).pageCount = v.pageCount ∧
            (t.channel p).cueCount = v.cueCount ∧ (t.channel p).next = 0 ∧ (t.channel p).fifo = [] ∧
            (t.channel p).loops = [] ∧
            (∀ a : AxisId, (t.axis a).claim = if v.axisMask.getLsbD a.val then some p else (s.axis a).claim) ∧
            t.live? e.programme = some { v with references := v.references + 1 } ∧
            (∀ q : PlayerId, q ≠ p → t.player q = s.player q) ∧
            t.time = s.time ∧ t.backup = s.backup ∧ t.calendar = s.calendar ∧ t.strikes = s.strikes ∧
            t.hammer = s.hammer ∧ t.pins = s.pins ∧ t.stage = s.stage ∧ t.store.nvm = s.store.nvm) ∧
    (∀ p : PlayerId, s.todo = Todo.none → (s.player p).state = .draining →
      (∀ e ∈ s.strikes.queue, e.owner ≠ some p) → (∀ (r : RollId) (x : Roll), s.roll r = some x → x.owner ≠ p) →
      (∀ a : AxisId, (s.axis a).slotOf p = false ∧ ((s.axis a).claim = some p → (s.axis a).inMotion = false)) →
      (∀ f, s.store.path = some f → f.who ≠ .channel p) →
      ∃ t, exec (.playerRelease p) s = .next t ∧
        t.player p = { Player.initial with
          programme := (s.player p).programme, version := (s.player p).version, outcome := (s.player p).outcome,
          counters := (s.player p).counters } ∧
        (∀ q : PlayerId, q ≠ p → t.player q = s.player q) ∧
        (∀ a : AxisId, t.axis a =
          { s.axis a with claim := if (s.axis a).claim = some p then none else (s.axis a).claim }) ∧
        t.todo = { Todo.none with attempt := true } ∧
        t.shows.counters = s.shows.counters.ended (s.player p).outcome ∧
        (∀ g : ProgId, (s.player p).programme = g.number →
          (∀ v, s.live? g = some v → v.version = (s.player p).version →
            t.live? g = some { v with references := v.references - 1 }) ∧
          (∀ v, (∀ w, s.live? g = some w → w.version ≠ (s.player p).version) →
            (s.dirEntry g).retiring = some v → v.version = (s.player p).version →
            (t.dirEntry g).retiring =
              if v.references ≤ 1 then none else some { v with references := v.references - 1 })) ∧
        t.time = s.time ∧ t.backup = s.backup ∧ t.calendar = s.calendar ∧ t.strikes = s.strikes ∧ t.hammer = s.hammer ∧
        t.channels = s.channels ∧ t.pins = s.pins ∧ t.stage = s.stage ∧ t.shows.queue = s.shows.queue ∧
        t.store.nvm = s.store.nvm) ∧
    (s.todo = { Todo.none with attempt := true } →
      let opens (t : State) (a : AxisId) : Prop :=
        (t.axis a).claim = none ∧ (t.axis a).state = .idle ∧ (t.axis a).slot = none
      let timely (t : State) (e : StartEntry) : Prop :=
        (t.stage.mode = .auto ∨ (t.stage.mode = .manual ∧ e.source = .service)) ∧ t.time.stageTime ≤ e.expiry
      ((∀ a : AxisId, (s.axis a).slot = none) →
        ∃ t, exec .admissionAttempt s = .next t ∧ t.shows.queue.Sublist s.shows.queue ∧
          ∀ e ∈ t.shows.queue, ∃ v, t.live? e.programme = some v ∧
            ¬ ((∃ p : PlayerId, (t.player p).state = .idle) ∧ timely t e ∧
              ∀ a : AxisId, v.axisMask.getLsbD a.val = true → opens t a)) ∧
      ∀ (e : StartEntry) (v : Version), s.shows.queue = [e] → s.live? e.programme = some v →
        ((∀ p : PlayerId, (s.player p).state ≠ .idle) ∨ ∃ a : AxisId, v.axisMask.getLsbD a.val = true ∧ ¬ opens s a) →
        (timely s e →
          let lets (p : PlayerId) : Prop :=
            ∀ a : AxisId, v.axisMask.getLsbD a.val = true → (s.axis a).claim = some p ∨ opens s a
          let blocked : Prop := ∀ a : AxisId, v.axisMask.getLsbD a.val = true → (s.axis a).claim ≠ none ∨ opens s a
          let candidate (p : PlayerId) : Prop :=
            ((s.player p).state = .priming ∨ (s.player p).state = .running ∨ (s.player p).state = .waiting) ∧
            (s.player p).priority < e.priority ∧ lets p
          let under : Prop := ∃ d : PlayerId, (s.player d).state = .draining ∧
            (lets d ∨ (s.player d).outcome = some .preempted)
          (∀ p : PlayerId, blocked → ¬ under → candidate p →
            (∀ q : PlayerId, q ≠ p → candidate q → (s.player p).priority < (s.player q).priority ∨
              ((s.player p).priority = (s.player q).priority ∧ (s.player q).admission < (s.player p).admission)) →
            ∃ t, exec .admissionAttempt s = .next t ∧ t.shows.queue = [e] ∧
              t.shows.counters.preemptions = sat32 s.shows.counters.preemptions ∧
              (t.player p).state = .draining ∧ (t.player p).outcome = some .preempted ∧
              (t.channel p).state = .idle ∧ (t.channel p).fifo = [] ∧
              ∀ q : PlayerId, q ≠ p → (t.player q).state = (s.player q).state) ∧
          ((¬ blocked ∨ under ∨ ∀ p, ¬ candidate p) →
            ∃ t, exec .admissionAttempt s = .next t ∧ t.shows.queue = [e] ∧
              t.shows.counters.preemptions = s.shows.counters.preemptions ∧ ∀ q : PlayerId, t.player q = s.player q)) ∧
        ∀ a : AxisId, v.axisMask.getLsbD a.val = true → (s.axis a).state = .unhomed → (s.axis a).claim = none →
          (∀ b : AxisId, b ≠ a → v.axisMask.getLsbD b.val = true → (s.axis b).state ≠ .unhomed) →
          ((s.stage.mode ≠ .auto ∨ s.store.setup.autoHome = false ∨ s.homingObstacle a ≠ none) →
            exec .admissionAttempt s = .next { s with todo := Todo.none }) ∧
          (s.stage.mode = .auto → s.store.setup.autoHome = true → s.homingObstacle a = none →
            let made := (s.axis a).config.made s.pins.switch[a]
            exec .admissionAttempt s = .next ((({ s with todo := Todo.none }).modAxis a fun x =>
              { x with
                positionValid := false, passage := none, stepAccumulator := 0, state := .homing,
                homing := some { phase := if made then .backoff else .search, travel := 0, origin := .automatic },
                direction := if made then x.config.homeDir.opposite else x.config.homeDir }).modStage fun g =>
              { g with startup := g.startup.filter (· != a) })))

/-! ### Events of the strikes and the hammers -/

/-- LATE_REMOVAL takes the first strike past its latest launch off the queue, counted late (R93); under mute STRIKE_DUE takes
the first due strike off it, counted muted (R92; one that is late at that stage time too: the model's choice, log 34), and with mute off it changes nothing (R91). SLOT_GRANT launches the first
candidate on the lowest FREE slot (R94, R108, R109). ROLL_ISSUE offers the roll's next strike and moves the roll on by the
interval of its turn, or frees it at its last (R97); an overdue roll issues again and again until none is due. An offer (R81, R87 to R90) is refused for a bell that is not in service,
placed with its original launch time or, late by at most 50 ms, with the current one, counted enqueued and late when later
still, deferred to the bell's ready time or refused as collided by the guard, and refused by a full queue; under mute a
strike that is due at once leaves again (R92). A ROLL cue restarts the slot that holds its bell, takes the lowest FREE one, or
degrades to a single strike (R96; that a bell not in service is refused though a slot holds it is the model's choice, log
29). -/
def Obligations.StrikeEventsTakeTheirEntry : Prop :=
  (∀ (b : BellId) (s : State),
    ((∀ x ∈ s.strikes.queue, x.bell ≠ b) → s.readyTime b = (s.bell b).guardEnd) ∧
    (∀ (pre post : List StrikeEntry) (e : StrikeEntry), s.strikes.queue = pre ++ e :: post → e.bell = b →
      (∀ x ∈ post, x.bell ≠ b) → s.readyTime b = some (max ((s.bell b).guardEnd.getD 0) e.guardEnd)) ∧
    ∀ (v sound : Nat) (owner : Option PlayerId) (slot : Option RollId), (s.bell b).state = .inService →
      let f := s.strikeFigures b v
      let first : Int := (sound : Int) - (f.2 + (s.bell b).flight : Nat)
      let now := s.time.stageTime
      let offer := s.offerStrike b.val v sound owner slot
      let asked : Nat := if (now : Int) ≤ first then first.toNat else now
      (5000 < (now : Int) - first →
        offer.1 = s.countStrike fun c => { c with enqueued := sat48 c.enqueued, late := sat48 c.late }) ∧
      ((now : Int) - first ≤ 5000 →
        (∀ r : Nat, s.readyTime b = some r → asked + s.store.setup.slipAllowance * 100 < r →
          offer.1 = s.countStrike fun c => { c with refusedCollided := sat48 c.refusedCollided }) ∧
        ∀ l : Nat,
          ((s.readyTime b = none ∧ l = asked) ∨
            ∃ r, s.readyTime b = some r ∧ r ≤ asked + s.store.setup.slipAllowance * 100 ∧ l = max asked r) →
          let e : StrikeEntry :=
            { bell := b, velocity := f.1, drive := f.2, flight := (s.bell b).flight, sound := sound, launch := l,
              latest := (first + 5000).toNat, guardEnd := l + f.2 + (s.bell b).flight + (s.bell b).recover,
              recover := (s.bell b).recover, owner := owner, slot := slot, number := s.strikes.enqueued + 1 }
          (32 ≤ s.strikes.queue.length →
            offer.1 = s.countStrike fun c => { c with refusedFull := sat48 c.refusedFull }) ∧
          (s.strikes.queue.length < 32 → (s.backup.mute = false ∨ now < l) →
            offer.1 = s.modStrikes fun k =>
              { k with
                queue := k.queue.takeWhile (fun x => !e.before x) ++ e :: k.queue.dropWhile (fun x => !e.before x)
                enqueued := k.enqueued + 1
                counters := { k.counters with enqueued := sat48 k.counters.enqueued } }) ∧
          (s.strikes.queue.length < 32 → s.backup.mute = true → l ≤ now →
            (∀ x ∈ s.strikes.queue, x.number ≤ s.strikes.enqueued) →
            offer.1 = s.modStrikes fun k =>
              { k with
                enqueued := k.enqueued + 1
                counters := { k.counters with enqueued := sat48 k.counters.enqueued
                                              muted := sat48 k.counters.muted } }))) ∧
  (∀ (p : PlayerId) (bell v i j n sound : Nat) (s : State),
    let refused := s.countStrike fun c => { c with refusedUnavailable := sat48 c.refusedUnavailable }
    ((23 < bell ∨ ∃ b : BellId, bell = b.val ∧ (s.bell b).state ≠ .inService) →
      (∀ owner slot, (s.offerStrike bell v sound owner slot).1 = refused) ∧ s.rollCue p bell v i j n sound = refused) ∧
    ∀ b : BellId, bell = b.val → (s.bell b).state = .inService → 2 ≤ n →
      let x : Roll :=
        { owner := p, bell := b, velocity := max 1 (min v 127), intervalA := i, intervalB := j, next := .b,
          nextSound := sound + i * 1000, remaining := n - 1 }
      let on (r : RollId) : State := ((s.setRoll r (some x)).offerStrike bell v sound (some p) (some r)).1
      let holds (r : RollId) : Prop := (s.roll r).any (fun y => y.bell == b) = true
      (∀ r : RollId, holds r → (∀ k, k < r → ¬ holds k) → s.rollCue p bell v i j n sound = on r) ∧
      ((∀ r : RollId, ¬ holds r) →
        (∀ r : RollId, s.roll r = none → (∀ k, k < r → s.roll k ≠ none) → s.rollCue p bell v i j n sound = on r) ∧
        ((∀ r : RollId, s.roll r ≠ none) → s.rollCue p bell v i j n sound =
          ((s.countStrike fun c => { c with rollsDegraded := sat48 c.rollsDegraded }).offerStrike bell v sound
            (some p) none).1))) ∧
  ∀ s : State,
    (∀ (pre post : List StrikeEntry) (e : StrikeEntry), s.strikes.queue = pre ++ e :: post →
      (Awake s → (∀ x ∈ pre, s.time.stageTime ≤ x.latest) → e.latest < s.time.stageTime →
        exec .lateRemoval s = .next (s.modStrikes fun k =>
          { k with queue := pre ++ post, counters := { k.counters with late := sat48 k.counters.late } })) ∧
      (Awake s → s.backup.mute = true → (∀ x ∈ pre, s.time.stageTime < x.launch) → e.launch ≤ s.time.stageTime →
        exec .strikeDue s = .next (s.modStrikes fun k =>
          { k with queue := pre ++ post, counters := { k.counters with muted := sat48 k.counters.muted } })) ∧
      (∀ k : Nat, s.running = true → (∀ x ∈ pre, s.candidate x = false) → e.launch ≤ s.time.stageTime →
        s.time.stageTime ≤ e.latest → s.time.frozen = false → s.backup.mute = false →
        (s.hammerOf e.bell).state = .rest →
        s.hammer.slots[k]? = some none → (∀ j < k, s.hammer.slots[j]? ≠ some none) →
        exec .slotGrant s =
          .next ((((s.modStrikes fun x =>
              { x with queue := pre ++ post, counters := { x.counters with launched := sat48 x.counters.launched } }).modBell
            e.bell fun b =>
              { b with launched := sat32 b.launched,
                       guardEnd := some (s.time.stageTime + e.drive + e.flight + e.recover) }).modHammerDrive fun h =>
              { h with slots := h.slots.set k (some e.bell) }).modHammer e.bell fun h =>
                { h with state := .driving s.time.hammerTime e.drive k }))) ∧
    (Awake s → s.backup.mute = false → exec .strikeDue s = .next s) ∧
    ∀ (r : RollId) (x : Roll), Awake s → s.roll r = some x →
      let one (v : State) : State := match v.roll r with
        | none => v
        | some y =>
          if y.nextSound ≤ v.time.stageTime + 10000 then
            ((v.offerStrike y.bell.val y.velocity y.nextSound (some y.owner) (some r)).1).setRoll r
              (if y.remaining ≤ 1 then none
               else some { y with
                 remaining := y.remaining - 1
                 nextSound := y.nextSound + (if y.next = .a then y.intervalA else y.intervalB) * 1000
                 next := if y.next = .a then .b else .a })
          else v
      exec (.rollIssue r) s = .next (Nat.repeat one (x.remaining + 1) s) ∧
      (s.time.stageTime + 10000 < x.nextSound → exec (.rollIssue r) s = .next s) ∧
      (x.nextSound ≤ s.time.stageTime + 10000 →
        let u := (s.offerStrike x.bell.val x.velocity x.nextSound (some x.owner) (some r)).1
        let then_ : Nat := x.nextSound + (if x.next = .a then x.intervalA else x.intervalB) * 1000
        (x.remaining ≤ 1 → exec (.rollIssue r) s = .next (u.setRoll r none)) ∧
        (1 < x.remaining → s.time.stageTime + 10000 < then_ →
          exec (.rollIssue r) s = .next (u.setRoll r (some { x with
            remaining := x.remaining - 1, nextSound := then_, next := if x.next = .a then .b else .a }))))

/-- DRIVE_END frees the slot and begins FLIGHT (R110). CONTACT_CAPTURE (R111, R112) takes an edge to the active level inside
the window: the estimate learns an eighth of the difference, within 100 to 3000, and the hammer recovers; any other sample
only keeps the level. MISS (R113, R114): a window that closes with no contact counts a miss, and the third faults the bell,
flushing its strikes and rolls (R101). HAMMER_REST (R115) ends recovery and the guard. With recover 0 the hammer is at REST
at once. -/
def Obligations.HammerEvents : Prop :=
  ∀ (b : BellId) (s : State), Awake s →
    let now := s.time.hammerTime
    let rec_ := (s.bell b).recover
    (∀ start drive slot, (s.hammerOf b).state = .driving start drive slot →
      (now < start + drive → exec (.driveEnd b) s = .next s) ∧
      (start + drive ≤ now →
        exec (.driveEnd b) s =
          .next ((s.modHammerDrive fun h => { h with slots := h.slots.set slot none }).modHammer b fun h =>
            { h with state := .flight start drive }))) ∧
    (∀ start drive rest, (s.hammerOf b).state = .recovering start drive rest →
      (now < rest → exec (.hammerRest b) s = .next s) ∧
      (rest ≤ now →
        exec (.hammerRest b) s =
          .next ((s.modHammer b fun h => { h with state := .rest }).modBell b fun x => { x with guardEnd := none }))) ∧
    (∀ (l : Level) (pol : Polarity), (s.bell b).contactPolarity = .known pol →
      let u := { s with pins := { s.pins with contact := s.pins.contact.set b l } }
      ((¬ (contactActive pol l = true ∧ contactActive pol s.pins.contact[b] = false) ∨
          (∀ start drive, (s.hammerOf b).state = .flight start drive →
            now < start + drive + 100 ∨ start + drive + 3000 < now)) →
        exec (.contactCapture b l) s = .next u) ∧
      (∀ start drive, (s.hammerOf b).state = .flight start drive → start + drive + 100 ≤ now →
        now ≤ start + drive + 3000 → contactActive pol l = true → contactActive pol s.pins.contact[b] = false →
        let m : Nat := now - (start + drive)
        exec (.contactCapture b l) s =
          .next (((u.modBell b fun x =>
            { x with
              flight := (max 100 (min ((x.flight : Int) + ((m : Int) - x.flight + 4) / 8) 3000)).toNat, misses := 0,
              guardEnd := if rec_ = 0 then none else x.guardEnd }).modHammer b fun h =>
            { h with lastContact := some (now, m),
                     state := if rec_ = 0 then .rest else .recovering start drive (now + rec_) }).countHammer fun k =>
            { k with contacts := sat32 k.contacts }))) ∧
    (∀ start drive, (s.hammerOf b).state = .flight start drive →
      (now < start + drive + 3000 → exec (.miss b) s = .next s) ∧
      (start + drive + 3000 ≤ now → (s.bell b).misses < 2 →
        exec (.miss b) s =
          .next (((s.modBell b fun x =>
            { x with misses := x.misses + 1, guardEnd := if rec_ = 0 then none else x.guardEnd }).modHammer b fun h =>
            { h with state := if rec_ = 0 then .rest else .recovering start drive (start + drive + 3000 + rec_) }).countHammer
              fun k => { k with misses := sat32 k.misses })) ∧
      (start + drive + 3000 ≤ now → 2 ≤ (s.bell b).misses →
        ∃ t, exec (.miss b) s = .next t ∧
          t.bell b = { s.bell b with state := .faulted, misses := 3, guardEnd := none } ∧
          (∀ c : BellId, c ≠ b → t.bell c = s.bell c ∧ t.hammerOf c = s.hammerOf c) ∧
          (t.hammerOf b).state =
            (if rec_ = 0 then .rest else .recovering start drive (start + drive + 3000 + rec_)) ∧
          t.strikes.queue = s.strikes.queue.filter (fun e => e.bell != b) ∧
          (∀ r : RollId, t.roll r = if (s.roll r).any (fun x => x.bell == b) then none else s.roll r) ∧
          t.hammer.counters.bellFaults = sat32 s.hammer.counters.bellFaults ∧
          t.hammer.counters.misses = sat32 s.hammer.counters.misses ∧ t.hammer.slots = s.hammer.slots ∧
          t.time = s.time ∧ t.backup = s.backup ∧ t.calendar = s.calendar ∧ t.shows = s.shows ∧ t.axes = s.axes ∧
          t.channels = s.channels ∧ t.store = s.store ∧ t.pins = s.pins ∧ t.stage = s.stage))

/-! ### Events of the axes -/

/-- MOVE_DUE and MOVE_START (R127, R148): a pending move that is due on an IDLE axis, with the mode its owner needs, starts
when no interlock entry stands in its way and is held when one does; a move that is not ready waits. What the row MOVE_START
does as a command of its own (it starts a move that is ready and passes, held or not, and neither holds nor reports one that
fails) is the model's choice (log 25). INTERLOCK_TIMEOUT (R149) empties the slot of a move held for the hold timeout. -/
def Obligations.PendingMovesStartOrWait : Prop :=
  ∀ (a : AxisId) (m : PendingMove) (s : State), Awake s → (s.axis a).slot = some m →
    ((s.time.stageTime < m.due ∨ (s.axis a).state ≠ .idle ∨ s.stage.mode = .halted ∨
        (m.owner = .service ∧ (s.stage.mode ≠ .manual ∨ (s.axis a).claim ≠ none))) →
      exec (.moveDue a) s = .next s ∧ exec (.moveStart a) s = .next s) ∧
    (m.due ≤ s.time.stageTime → (s.axis a).state = .idle → s.stage.mode ≠ .halted →
      (m.owner = .service → s.stage.mode = .manual ∧ (s.axis a).claim = none) →
      (∀ k : InterlockId, s.obstacle a m.target = some k →
        exec (.moveStart a) s = .next s ∧ (∀ h, m.held = some h → exec (.moveDue a) s = .next s) ∧
        (m.held = none →
          exec (.moveDue a) s =
            .next (((s.modAxis a fun x => { x with slot := some { m with held := some s.time.stageTime } }).report
              .moveHeld (some (.axis a.val)) (some m.owner.code) (some k.val)).countStage fun c =>
                { c with movesHeld := sat32 c.movesHeld }))) ∧
      (s.obstacle a m.target = none →
        ((s.axis a).position ≠ m.target →
          let u := (s.modAxis a fun x =>
            { x with slot := none, target := m.target, clamped := m.clamped, owner := m.owner,
                     profile := s.axes.profiles[m.profile], velocity := 0, stepAccumulator := 0, speedRemainder := 0,
                     lastAction := .none, direction := if x.position < m.target then .positive else .negative,
                     state := .moving }).countAxis fun c => { c with movesStarted := sat32 c.movesStarted }
          exec (.moveDue a) s = .next u ∧ exec (.moveStart a) s = .next u) ∧
        ((s.axis a).position = m.target →
          ∃ t, exec (.moveStart a) s = .next t ∧ exec (.moveDue a) s = .next t ∧ (t.axis a).state = .idle ∧
            (t.axis a).slot = none ∧ (t.axis a).position = m.target ∧
            (t.axis a).config = (s.axis a).config ∧ (t.axis a).claim = (s.axis a).claim ∧
            t.time = s.time ∧ t.backup = s.backup ∧ t.calendar = s.calendar ∧ t.strikes = s.strikes ∧
            t.hammer = s.hammer ∧ t.channels = s.channels ∧ t.store = s.store ∧ t.pins = s.pins ∧
            t.shows.queue = s.shows.queue ∧ t.stage.mode = s.stage.mode))) ∧
    (∀ h : Nat, m.held = some h →
      (s.time.stageTime < h + s.store.setup.holdTimeout * 100000 → exec (.interlockTimeout a) s = .next s) ∧
      (h + s.store.setup.holdTimeout * 100000 ≤ s.time.stageTime →
        ∃ t, exec (.interlockTimeout a) s = .next t ∧ t.axis a = { s.axis a with slot := none } ∧
          t.stage.counters.interlockTimeouts = sat32 s.stage.counters.interlockTimeouts ∧
          (∀ b : AxisId, (t.axis b).config = (s.axis b).config ∧ (t.axis b).claim = (s.axis b).claim) ∧
          t.time = s.time ∧ t.backup = s.backup ∧ t.calendar = s.calendar ∧ t.strikes = s.strikes ∧
          t.hammer = s.hammer ∧ t.channels = s.channels ∧ t.store = s.store ∧ t.pins = s.pins ∧
          t.shows.queue = s.shows.queue ∧ t.stage.mode = s.stage.mode))

/-- SWITCH_EDGE: in BACKOFF the switch released begins SEARCH toward it; in SEARCH the switch made completes homing at the
home position (R132), which is reported, and the start-up homing list is tried again in its order (R134), before the held moves are
tested (that order is the model's choice, log 23); at a homed axis an edge within the slip band marks the passage, and one outside
it is slip (R135, R136). HOME_NOT_FOUND (R133): a homing that has used up its search travel faults the axis. That SEARCH stands and the steps
left in the tick are dropped at the inactive edge itself, not at the next motion tick, is the model's choice (log 30). -/
def Obligations.HomeSwitchEvents : Prop :=
  ∀ (a : AxisId) (s : State), Awake s →
    (∀ l : Level,
      let u := { s with pins := { s.pins with switch := s.pins.switch.set a l } }
      let c := (s.axis a).config
      (s.pins.switch[a] = l → exec (.switchEdge a l) s = .next s) ∧
      (s.pins.switch[a] ≠ l →
        (∀ (n : Nat) (o : HomingOrigin), (s.axis a).state = .homing →
          (s.axis a).homing = some { phase := .backoff, travel := n, origin := o } → c.made l = false →
          exec (.switchEdge a l) s = .next (u.modAxis a fun x =>
            { x with homing := some { phase := .search, travel := n, origin := o }, stepAccumulator := 0, burst := none,
                     direction := x.config.homeDir })) ∧
        (∀ (n : Nat) (o : HomingOrigin), (s.axis a).state = .homing → (s.axis a).slot = none →
          (s.axis a).homing = some { phase := .search, travel := n, origin := o } → c.made l = true →
          ∃ t, exec (.switchEdge a l) s = .next t ∧ (t.axis a).state = .idle ∧ (t.axis a).position = c.home ∧
            (t.axis a).positionValid = true ∧ (t.axis a).velocity = 0 ∧ (t.axis a).homing = none ∧
            (t.axis a).fault = none ∧ (t.axis a).slot = none ∧ t.todo.attempt = true ∧
            t.axes.counters.homings = sat32 s.axes.counters.homings ∧ t.pins = u.pins ∧
            (∀ b : AxisId, (t.axis b).config = (s.axis b).config ∧ (t.axis b).claim = (s.axis b).claim) ∧
            t.time = s.time ∧ t.backup = s.backup ∧ t.calendar = s.calendar ∧ t.strikes = s.strikes ∧
            t.hammer = s.hammer ∧ t.channels = s.channels ∧ t.store = s.store ∧ t.stage.mode = s.stage.mode) ∧
        (∀ (n : Nat) (o : HomingOrigin), (s.axis a).state = .homing →
          (s.axis a).homing = some { phase := .search, travel := n, origin := o } → c.made l = true →
          ∃ h : State, h = { u with axes := h.axes, shows := h.shows, todo := h.todo, ports := (u.report .axisHomed
              (some (.axis a.val)) (some c.home) (some n)).ports } ∧
            h.axis a = { s.axis a with
              state := .idle, position := c.home, positionValid := true, velocity := 0, stepAccumulator := 0, speedRemainder := 0
              fault := none, homing := none, burst := none, slipDue := false, lastStep := (h.axis a).lastStep
              passage := some { side := if c.homeDir = .negative then .high else .low, edgeSeen := true } } ∧
            (∀ b : AxisId, b ≠ a → h.axis b = s.axis b) ∧ h.axes.interlocks = s.axes.interlocks ∧
            h.axes.profiles = s.axes.profiles ∧
            h.axes.counters = { s.axes.counters with homings := sat32 s.axes.counters.homings } ∧
            h.shows = { s.shows with players := h.shows.players } ∧
            (∀ p : PlayerId, { h.player p with awaitOver := (s.player p).awaitOver } = s.player p) ∧
            h.todo.attempt = true ∧ h.todo.reeval = true ∧ h.todo.test[a] = true ∧
            exec (.switchEdge a l) s = .next ((s.stage.startup.foldl
              (fun x b => if x.mayHome b then x.homingBegun b .automatic else x) h).close)) ∧
        (∀ step : Int × Int, ((s.axis a).state = .idle ∨ (s.axis a).state = .moving ∨
            ((s.axis a).state = .stopping ∧ (s.axis a).positionValid = true)) → (s.axis a).lastStep = some step →
          let near (x : Int) : Prop := c.home - c.slipTolerance ≤ x ∧ x ≤ c.home + c.slipTolerance
          ((near step.1 ∨ near step.2) → (s.axis a).slipDue = false → (s.axis a).burst = none →
            exec (.switchEdge a l) s = .next (u.modAxis a fun x =>
              { x with passage := x.passage.map fun q => { q with edgeSeen := true } })) ∧
          (¬ near step.1 → ¬ near step.2 →
            ∃ t, exec (.switchEdge a l) s = .next t ∧ (t.axis a).positionValid = false ∧
              (t.axis a).fault = some .slip ∧ (t.axis a).passage = none ∧ (t.axis a).slot = none ∧
              ((s.axis a).state = .idle → (t.axis a).state = .unhomed) ∧
              ((s.axis a).state = .moving → (s.axis a).velocity ≠ 0 → (t.axis a).state = .stopping ∧
                (t.axis a).stop = some { kind := .emergency, cause := .slip }) ∧
              t.axes.counters.slips = sat32 s.axes.counters.slips ∧ t.pins = u.pins ∧
              (∀ b : AxisId, (t.axis b).config = (s.axis b).config ∧ (t.axis b).claim = (s.axis b).claim) ∧
              t.time = s.time ∧ t.backup = s.backup ∧ t.calendar = s.calendar ∧ t.strikes = s.strikes ∧
              t.hammer = s.hammer ∧ t.channels = s.channels ∧ t.store = s.store ∧ t.stage.mode = s.stage.mode)))) ∧
    (∀ h : Homing, (s.axis a).state = .homing → (s.axis a).homing = some h → (s.axis a).pulse = false →
      (h.travel < (s.axis a).config.searchTravel → exec (.homeNotFound a) s = .next s) ∧
      ((s.axis a).config.searchTravel ≤ h.travel →
        ∃ t, exec (.homeNotFound a) s = .next t ∧
          t.axis a = { s.axis a with state := .faulted, fault := some .homeNotFound, homing := none, burst := none } ∧
          t.axes.counters.homeNotFound = sat32 s.axes.counters.homeNotFound ∧
          (∀ b : AxisId, (t.axis b).config = (s.axis b).config ∧ (t.axis b).claim = (s.axis b).claim) ∧
          t.time = s.time ∧ t.backup = s.backup ∧ t.calendar = s.calendar ∧ t.strikes = s.strikes ∧
          t.hammer = s.hammer ∧ t.channels = s.channels ∧ t.store = s.store ∧ t.pins = s.pins ∧
          t.shows.queue = s.shows.queue ∧ t.stage.mode = s.stage.mode))

/-! ### Events of the store -/

/-- STORE_WAIT_END by the table of R67, and so the tests of a channel at a dispatch from its FIFO, of its need (R66) and of a
wait for the store (R67); and READ_GRANT by R164: the QUEUED channel of the lowest fill and, at equal fill, the
lowest number; with none, and the array IDLE, the first queued port read, then the store's own. That a channel of fill 4 or
less which queues its read under a SUSPENDED erase counts as asking is the model's reading (log 22). -/
def Obligations.ReadsAreGrantedInOrder : Prop :=
  ∀ s : State, s.running = true →
    (∀ p : PlayerId, (s.channel p).state = .waitingStore →
      let queued (x : State) (asking : Bool) : State :=
        x.modChannel p fun c => { c with state := .fetching, read := .queued, asking := asking }
      (s.store.array = .idle → exec (.storeWaitEnd p) s = .next (queued s false)) ∧
      (∀ n, s.store.array = .suspended n →
        exec (.storeWaitEnd p) s = .next (queued s (decide ((s.channel p).fifo.length ≤ 4)))) ∧
      (∀ n, s.store.array = .erasing n →
        ((s.channel p).fifo.length ≤ 4 →
          exec (.storeWaitEnd p) s = .next (queued ((s.modStore fun x => { x with array := .suspended n }).countStore
            fun c => { c with eraseSuspends := sat32 c.eraseSuspends }) true)) ∧
        (4 < (s.channel p).fifo.length → exec (.storeWaitEnd p) s = .next s)) ∧
      (∀ n, s.store.array = .programming n → exec (.storeWaitEnd p) s = .next s)) ∧
    (∀ p : PlayerId,
      let c := s.channel p
      let need : Prop := c.state = .fetching ∧ c.read = .none ∧ c.fifo.length ≤ 8
      let waits : Prop := c.state = .waitingStore
      let queued (x : State) (asking : Bool) : State :=
        x.modChannel p fun c => { c with state := .fetching, read := .queued, asking := asking }
      let shut : State := if c.state = .fetching then
          s.modChannel p fun c =>
            { c with state := .waitingStore, read := .none, asking := false, storeWaits := sat32 c.storeWaits }
        else s
      (¬ need → ¬ waits → s.testDispatch p = s) ∧
      (need ∨ waits →
        (s.store.array = .idle → s.testDispatch p = queued s false) ∧
        (∀ n, s.store.array = .suspended n → s.testDispatch p = queued s (decide (c.fifo.length ≤ 4))) ∧
        (∀ n, s.store.array = .erasing n →
          (c.fifo.length ≤ 4 → s.testDispatch p = queued ((s.modStore fun x => { x with array := .suspended n }).countStore
            fun c => { c with eraseSuspends := sat32 c.eraseSuspends }) true) ∧
          (4 < c.fifo.length → s.testDispatch p = shut)) ∧
        (∀ n, s.store.array = .programming n → s.testDispatch p = shut))) ∧
    (s.store.path = none → s.store.waiting = none →
      (∀ p : PlayerId, (s.store.array = .idle ∨ ∃ n, s.store.array = .suspended n) →
        (s.channel p).read = .queued →
        (∀ q : PlayerId, q ≠ p → (s.channel q).read = .queued → (s.channel p).fifo.length < (s.channel q).fifo.length ∨
          ((s.channel p).fifo.length = (s.channel q).fifo.length ∧ p < q)) →
        exec .readGrant s =
          .next ((s.modStore fun x => { x with
            path := some { who := .channel p, left := 25, page := 0, offset := 0, length := 0 } }).modChannel p
              fun c => { c with read := .inFlight })) ∧
      ((∀ p : PlayerId, (s.channel p).read ≠ .queued) →
        (∀ n, s.store.array = .suspended n → exec .readGrant s = .next s) ∧
        (s.store.array = .idle →
          (∀ r rs, s.store.portReads = r :: rs →
            exec .readGrant s = .next (s.modStore fun x => { x with
              portReads := rs
              path := some { who := .port r.port, left := 25, page := r.page, offset := r.offset, length := r.length } })) ∧
          (s.store.portReads = [] → s.store.ownRead = true →
            exec .readGrant s = .next (s.modStore fun x => { x with
              ownRead := false, path := some { who := .store, left := 25, page := 0, offset := 0, length := 0 } })))))

/-- READ_COMPLETE (R68, R164): a port's read is answered OK with the bytes, a held transaction with it (R188); a stopped
channel's read leaves no trace (R74); a channel's block joins its FIFO: play cues in their order (R69), a LOOP_BEGIN pushed
and a LOOP_END that jumps back or is popped (R70, R71), the END with AT_END behind it (R72), and an END of delta 0 in place of
a record that faults (R73). That the blocks read do not rise at a stopped channel's read, and that after a fault the next
record is the cue count and the loop stack is empty, are the model's choices (log 22). A block of any records is taken record by record (R69 to R73). ERASE_PHASE_END of an ERASE_PAGE (R163, R167) leaves
0xFF in every byte of the page, which is FREE; PROGRAM_PHASE_END of a WRITE_PAGE (R168) leaves the staging buffer's bytes in
the page, which is DRAFT; both end their operation with its record (R182). An erase with a program behind it begins it. -/
def Obligations.ReadsAndPhasesEnd : Prop :=
  ∀ s : State, Awake s →
    (∀ f : InFlight, s.store.path = some f → f.left = 0 →
      (s.store.waiting = none → (∀ n, s.store.array ≠ .suspended n) →
        (∀ p : PortId, f.who = .port p →
          let r : Response :=
            { status := .done, result := .ok, data := s.store.nvm.bytes (512 * f.page + f.offset) f.length }
          exec .readComplete s = .next ((s.modStore fun x => { x with path := none }).modPort p fun c =>
            { c with response := r, state := .idle, hold := none,
                     lastRead := if c.hold = none then c.lastRead else r.bytes })) ∧
        (∀ p : PlayerId, f.who = .channel p → (s.channel p).read ≠ .inFlight →
          exec .readComplete s = .next (s.modStore fun x => { x with path := none }))) ∧
      (∀ p : PlayerId, f.who = .channel p → (s.channel p).read = .inFlight →
        ∃ t, exec .readComplete s = .next t ∧ t.store.path = none ∧ (t.channel p).read ≠ .inFlight ∧
          (t.channel p).blocksRead = sat32 (s.channel p).blocksRead ∧ (s.channel p).fifo <+: (t.channel p).fifo ∧
          t.store.nvm = s.store.nvm ∧ t.time = s.time ∧ t.backup = s.backup ∧ t.calendar = s.calendar ∧
          t.strikes = s.strikes ∧ t.hammer = s.hammer ∧ t.axes = s.axes ∧ t.pins = s.pins ∧ t.stage = s.stage)) ∧
    (∀ (f : InFlight) (p : PlayerId), s.store.path = some f → f.left = 0 → f.who = .channel p →
      (s.channel p).read = .inFlight →
      let c := s.channel p
      let block := recordsFrom s.store.nvm c.firstPage c.next c.blockLength
      (∃ t, exec .readComplete s = .next t ∧ (t.channel p).fifo = (takeRecords block c).1.fifo ∧
        (t.channel p).next = (takeRecords block c).1.next ∧ (t.channel p).loops = (takeRecords block c).1.loops ∧
        ((takeRecords block c).1.state = .atEnd → (t.channel p).state = .atEnd) ∧
        ((takeRecords block c).2 = none → t.ports = s.ports) ∧
        ∀ k : Nat, (takeRecords block c).2 = some k → t.ports =
          (s.report .scriptFault (some (.player p.val)) (some k) (some (s.player p).programme)).ports) ∧
      let plays (q : List FifoCue) : List Record := q.map fun x => .play x.delta x.cue
      let taken (q : List FifoCue) (next : Nat) (loops : List LoopEntry) : Prop :=
        ∃ t, exec .readComplete s = .next t ∧ (t.channel p).fifo = c.fifo ++ q ∧ (t.channel p).next = next ∧
          (t.channel p).loops = loops
      (∀ q : List FifoCue, block = plays q → (∀ x ∈ q, x.cue ≠ .endShow) → c.next + q.length < c.cueCount →
        taken q (c.next + q.length) c.loops) ∧
      (∀ (q : List FifoCue) (d : Nat), block = plays q ++ [.play d .endShow] → (∀ x ∈ q, x.cue ≠ .endShow) →
        c.next + q.length + 1 = c.cueCount →
        taken (q ++ [{ delta := d, cue := .endShow }]) c.cueCount c.loops ∧
        ∃ t, exec .readComplete s = .next t ∧ (t.channel p).state = .atEnd) ∧
      (∀ (n : Nat) (q q2 : List FifoCue), block = plays q ++ .loopBegin 0 n :: plays q2 →
        (∀ x ∈ q ++ q2, x.cue ≠ .endShow) → 0 < n → c.loops.length < 4 → c.next + q.length + 1 + q2.length < c.cueCount →
        taken (q ++ q2) (c.next + q.length + 1 + q2.length)
          ({ returnIndex := c.next + q.length + 1, passesLeft := n - 1 } :: c.loops)) ∧
      (∀ (q : List FifoCue) (rest : List Record) (e : LoopEntry) (es : List LoopEntry),
        block = plays q ++ .loopEnd 0 :: rest → (∀ x ∈ q, x.cue ≠ .endShow) → c.next + q.length + 1 < c.cueCount →
        c.loops = e :: es → 0 < e.passesLeft →
        taken q e.returnIndex ({ returnIndex := e.returnIndex, passesLeft := e.passesLeft - 1 } :: es)) ∧
      (∀ (q q2 : List FifoCue) (e : LoopEntry) (es : List LoopEntry),
        block = plays q ++ .loopEnd 0 :: plays q2 → (∀ x ∈ q ++ q2, x.cue ≠ .endShow) →
        c.next + q.length + 1 + q2.length < c.cueCount → c.loops = e :: es → e.passesLeft = 0 →
        taken (q ++ q2) (c.next + q.length + 1 + q2.length) es) ∧
      (∀ (q : List FifoCue) (r : Record) (rest : List Record), block = plays q ++ r :: rest →
        (∀ x ∈ q, x.cue ≠ .endShow) → (q = [] ∨ c.next + q.length < c.cueCount) →
        let k := c.next + q.length
        (r = .noKind ∨ (∃ d, r = .play d .endShow ∧ k + 1 ≠ c.cueCount) ∨
          ((∀ d, r ≠ .play d .endShow) ∧ k + 1 = c.cueCount) ∨
          (∃ d n, r = .loopBegin d n ∧ (d ≠ 0 ∨ n = 0 ∨ 4 ≤ c.loops.length)) ∨
          (∃ d, r = .loopEnd d ∧ (d ≠ 0 ∨ c.loops = []))) →
        taken (q ++ [{ delta := 0, cue := .endShow }]) c.cueCount [] ∧
        ∃ t, exec .readComplete s = .next t ∧ (t.channel p).state = .atEnd ∧
          t.ports = (s.report .scriptFault (some (.player p.val)) (some k) (some (s.player p).programme)).ports)) ∧
    (∀ (c : Channel) (r : Record) (rest : List Record),
      let last : Prop := c.next + 1 = c.cueCount
      let faulty : Prop := r = .noKind ∨ (∃ d, r = .play d .endShow ∧ ¬ last) ∨ ((∀ d, r ≠ .play d .endShow) ∧ last) ∨
        (∃ d n, r = .loopBegin d n ∧ (d ≠ 0 ∨ n = 0 ∨ 4 ≤ c.loops.length)) ∨
        ∃ d, r = .loopEnd d ∧ (d ≠ 0 ∨ c.loops = [])
      takeRecords [] c = (c, none) ∧
      (faulty → takeRecords (r :: rest) c =
        ({ c with fifo := c.fifo ++ [{ delta := 0, cue := .endShow }], loops := [], next := c.cueCount, state := .atEnd },
          some c.next)) ∧
      (¬ faulty →
        (∀ d : Nat, r = .play d .endShow → takeRecords (r :: rest) c =
          ({ c with fifo := c.fifo ++ [{ delta := d, cue := .endShow }], next := c.next + 1, state := .atEnd }, none)) ∧
        (∀ (d : Nat) (q : Cue), r = .play d q → q ≠ .endShow → takeRecords (r :: rest) c =
          takeRecords rest { c with fifo := c.fifo ++ [{ delta := d, cue := q }], next := c.next + 1 }) ∧
        (∀ d n : Nat, r = .loopBegin d n → takeRecords (r :: rest) c =
          takeRecords rest { c with loops := { returnIndex := c.next + 1, passesLeft := n - 1 } :: c.loops
                                    next := c.next + 1 }) ∧
        ∀ (d : Nat) (e : LoopEntry) (es : List LoopEntry), r = .loopEnd d → c.loops = e :: es →
          takeRecords (r :: rest) c =
            if 0 < e.passesLeft then
              ({ c with next := e.returnIndex
                        loops := { returnIndex := e.returnIndex, passesLeft := e.passesLeft - 1 } :: es }, none)
            else takeRecords rest { c with loops := es, next := c.next + 1 })) ∧
    (∀ op : Operation, s.store.op = some op →
      (∀ n : Nat, s.store.array = .erasing 0 → op.body = .erasePage n → 8 ≤ n → n < 512 →
        ∃ t, exec .erasePhaseEnd s = .next t ∧ t.store.array = .idle ∧ t.store.op = none ∧
          t.store.last = some { kind := .erasePage, port := op.port, subject := some (.page n), outcome := .ok, value := 0 } ∧
          (∀ k, t.store.nvm.byte k = if k / 512 = n then 0xFF#8 else s.store.nvm.byte k) ∧
          (∀ q, t.pageState q = if q = n then some .free else s.pageState q) ∧
          t.store.counters.pagesErased = sat32 s.store.counters.pagesErased ∧
          t.time = s.time ∧ t.backup = s.backup ∧ t.calendar = s.calendar ∧ t.strikes = s.strikes ∧
          t.hammer = s.hammer ∧ t.axes = s.axes ∧ t.shows = s.shows ∧ t.channels = s.channels ∧ t.pins = s.pins ∧
          t.stage = s.stage) ∧
      (s.store.array = .erasing 0 → (∀ n, op.body ≠ .erasePage n) → op.body.page < 512 →
        ∃ t, exec .erasePhaseEnd s = .next t ∧ t.store.op = some op ∧
          (s.store.path = none → t.store.array = .programming 300 ∧ t.store.waiting = none) ∧
          (s.store.path ≠ none → t.store.array = .idle ∧ t.store.waiting = some .program) ∧
          (∀ k, t.store.nvm.byte k = if k / 512 = op.body.page then 0xFF#8 else s.store.nvm.byte k) ∧
          t.store.map = s.store.map ∧ t.store.dir = s.store.dir ∧
          t.time = s.time ∧ t.backup = s.backup ∧ t.calendar = s.calendar ∧ t.strikes = s.strikes ∧
          t.hammer = s.hammer ∧ t.axes = s.axes ∧ t.shows = s.shows ∧ t.pins = s.pins ∧ t.stage = s.stage) ∧
      (∀ n : Nat, (h : n < 512) → 8 ≤ n → s.store.array = .programming 0 → op.body = .writePage n →
        s.store.nvm.cut[n] = none →
        ∃ t, exec .programPhaseEnd s = .next t ∧ t.store.array = .idle ∧ t.store.op = none ∧
          t.store.last = some { kind := .writePage, port := op.port, subject := some (.page n), outcome := .ok, value := 0 } ∧
          (∀ k, t.store.nvm.byte k =
            if k / 512 = n then s.store.staging[k % 512]'(Nat.mod_lt _ (by decide)) else s.store.nvm.byte k) ∧
          (∀ q, t.pageState q = if q = n then some .draft else s.pageState q) ∧
          t.store.counters.pagesProgrammed = sat32 s.store.counters.pagesProgrammed ∧
          t.store.staging = s.store.staging ∧
          t.time = s.time ∧ t.backup = s.backup ∧ t.calendar = s.calendar ∧ t.strikes = s.strikes ∧
          t.hammer = s.hammer ∧ t.axes = s.axes ∧ t.shows = s.shows ∧ t.channels = s.channels ∧ t.pins = s.pins ∧
          t.stage = s.stage))

/-! ### Searches and arithmetic -/

/-- A stamp matches an entry by its kind, its weekday and the season of its date (R21); a season entry covers a date
by the month-day pairs (R22), and the highest rank, at equal rank the lowest index, gives the season (R23). The
calendar's search (R25, R27) finds the latest matching stamp from a lowest stamp and the horizon's start on, up to the
minute of the time, and nothing when there is none. An evaluation leaves a disabled entry alone, anchors one without a
stamp while the clock is VALID (R25), and records the stamp it finds for any other (R27); that stamp is skipped,
reported and counted by the first of R28's tests that holds, or offered to the start queue, where it is skipped when
the queue is full and else reported as fired, after what its arrival brings about at once (R29, R33, R34, and log 1
for that order). MINUTE_BOUNDARY takes the season of a new day and then evaluates (R8, R26). (That the admission
attempt of a start precedes its CALENDAR_FIRED is the model's choice, log 23.) Taking a season replaces the active season and the
entry that gave it, and reports SEASON_CHANGED, with that entry and both seasons, exactly when the season differs (R23, R33). -/
def Obligations.TheLatestStampIsFound : Prop :=
  (∀ (e : CalendarEntry) (t : Vector SeasonEntry 16) (m : Nat),
    let minute := m % 1440
    let fits : Prop :=
      (e.kind = .dailyAt ∧ minute / 60 = e.hour ∧ minute % 60 = e.minute) ∨
      (e.kind = .hourly ∧ minute % 60 = e.hourlyMinute ∧ e.firstHour ≤ minute / 60 ∧ minute / 60 ≤ e.lastHour) ∨
      (e.kind = .interval ∧ e.interval ∣ minute ∧ e.windowFirst ≤ minute ∧ minute ≤ e.windowLast)
    (e.matchesStamp t m = true ↔
      fits ∧ e.weekdays.getLsbD (weekdayOfDay (m / 1440)) = true ∧
      e.seasons.getLsbD (seasonOfDate t (dateOfDay (m / 1440))) = true)) ∧
  (∀ (t : Vector SeasonEntry 16) (x : Date),
    (∀ k : SeasonId, (t[k]).startDay ≤ 31 → (t[k]).endDay ≤ 31 → x.day ≤ 31 →
      let from_ := (t[k]).startMonth < x.month ∨ ((t[k]).startMonth = x.month ∧ (t[k]).startDay ≤ x.day)
      let upTo := x.month < (t[k]).endMonth ∨ (x.month = (t[k]).endMonth ∧ x.day ≤ (t[k]).endDay)
      let wraps := (t[k]).endMonth < (t[k]).startMonth ∨
        ((t[k]).endMonth = (t[k]).startMonth ∧ (t[k]).endDay < (t[k]).startDay)
      ((t[k]).covers x = true ↔
        (t[k]).enabled = true ∧ ((¬ wraps ∧ from_ ∧ upTo) ∨ (wraps ∧ (from_ ∨ upTo))))) ∧
    ((∀ k : SeasonId, (t[k]).covers x = false) → seasonEntryOf t x = none ∧ seasonOfDate t x = 0) ∧
    ∀ k : SeasonId, (t[k]).covers x = true →
      (∀ j : SeasonId, (t[j]).covers x = true → (t[j]).rank < (t[k]).rank ∨ ((t[j]).rank = (t[k]).rank ∧ k ≤ j)) →
      seasonEntryOf t x = some k ∧ seasonOfDate t x = (t[k]).seasonId) ∧
  (∀ (e : CalendarEntry) (t : Vector SeasonEntry 16) (low now m : Nat),
    e.latestMatch t low now = some m ↔
      low ≤ m ∧ (now + 59999) / 60000 - 527040 ≤ m ∧ m ≤ now / 60000 ∧ e.matchesStamp t m = true ∧
      ∀ n, m < n → n ≤ now / 60000 → e.matchesStamp t n = false) ∧
  (∀ (k : CalId) (now : Nat) (s : State),
    let e := s.calendar.entries[k]
    let stamped (m : Nat) : State := s.modBackup fun b => { b with stamps := b.stamps.set k (some m) }
    (e.enabled = false → s.evaluateEntry now k = s) ∧
    (e.enabled = true → s.backup.stamps[k] = none →
      (s.backup.validity = .invalid → s.evaluateEntry now k = s) ∧
      (s.backup.validity = .valid → s.evaluateEntry now k =
        stamped ((e.latestMatch s.calendar.seasons 0 now).getD (now / 60000)))) ∧
    (∀ last : Nat, e.enabled = true → s.backup.stamps[k] = some last →
      (e.latestMatch s.calendar.seasons (last + 1) now = none → s.evaluateEntry now k = s) ∧
      ∀ m : Nat, e.latestMatch s.calendar.seasons (last + 1) now = some m →
        let u := stamped m
        let skipped (u : State) (r : SkipReason) : State :=
          (u.report .calendarSkipped (some (.calendarEntry k.val)) (some r.code) (some m)).countCalendar fun c => c.skip r
        (s.backup.validity = .invalid → s.evaluateEntry now k = skipped u .clockInvalid) ∧
        (s.backup.validity = .valid → s.stage.mode ≠ .auto → s.evaluateEntry now k = skipped u .mode) ∧
        (s.backup.validity = .valid → s.stage.mode = .auto → e.silent = .skip → s.backup.mute = true →
          s.evaluateEntry now k = skipped u .silent) ∧
        (s.backup.validity = .valid → s.stage.mode = .auto → (e.silent = .play ∨ s.backup.mute = false) →
          ((∀ g : ProgId, e.programme = g.number → s.live? g = none) →
            s.evaluateEntry now k = skipped u .notFound) ∧
          ∀ (g : ProgId) (v : Version), e.programme = g.number → s.live? g = some v →
            (v.latestStart * 1000 < now - m * 60000 → s.evaluateEntry now k = skipped u .late) ∧
            (now - m * 60000 ≤ v.latestStart * 1000 →
              (8 ≤ s.shows.queue.length → s.evaluateEntry now k =
                skipped (u.countShow fun c => { c with refusedFull := sat32 c.refusedFull }) .queueFull) ∧
              (s.shows.queue.length < 8 →
                let x : StartEntry :=
                  { programme := g, priority := e.priority, source := .calendar k, stamp := some m,
                    arrival := s.time.stageTime, expiry := s.time.stageTime + v.latestStart * 100000 }
                let arrived := (u.modShows fun b =>
                  { b with
                    queue := b.queue.takeWhile (fun y => decide (x.priority ≤ y.priority)) ++ x ::
                      b.queue.dropWhile (fun y => decide (x.priority ≤ y.priority))
                    counters := { b.counters with arrivals := sat32 b.counters.arrivals } }).oweAttempt
                s.evaluateEntry now k =
                  ((settle arrived).report .calendarFired (some (.calendarEntry k.val)) (some e.programme)
                    (some m)).countCalendar fun c => { c with fired := sat32 c.fired }))))) ∧
  (∀ (e : Option SeasonId) (s : State),
    let season : Nat := (e.map fun k => (s.calendar.seasons[k]).seasonId).getD 0
    let u := s.modCalendar fun c => { c with active := season, activeEntry := e }
    (season = s.calendar.active → s.setSeason e = u) ∧
    (season ≠ s.calendar.active → s.setSeason e =
      u.report .seasonChanged (e.map fun k => .seasonEntry k.val) (some season) (some s.calendar.active))) ∧
  ∀ s : State, Awake s → s.store.ready = true → 0 < s.backup.boundaryAhead →
    s.backup.wallMs + s.backup.boundaryAhead < 3155760000000 →
    let stamp := (s.backup.wallMs + s.backup.boundaryAhead) / 60000
    let u := s.modBackup fun b => { b with wallMs := b.wallMs + b.boundaryAhead, boundaryAhead := 0 }
    let v := if stamp % 1440 = 0 then
        u.setSeason (if s.backup.validity = .valid then
          seasonEntryOf s.calendar.seasons (wallFields (s.backup.wallMs + s.backup.boundaryAhead)).date else none)
      else u
    exec .minuteBoundary s = .next (allCals.foldl (fun x k => x.evaluateEntry (stamp * 60000) k) v).close

/-- The check at a move's start (R147): no entry stands in the way of a move exactly when no enabled entry's guarded axis
would leave its safe region while the condition axis is not in its window and staying there, and no enabled entry's
condition axis would leave its window while the guarded axis is not inside its safe region and staying there. The entry
that is named is the lowest in the way. The precondition of a homing (R150) fails exactly where an enabled entry that guards
the axis is not satisfied, or one whose condition axis it is has a guarded axis that is not inside its safe region and staying
there; the entry named is the lowest such. An entry is satisfied, and its guarded axis inside or committed to leave, as the three
tests of R146 say. -/
def Obligations.TheInterlockCheck : Prop :=
  ∀ (a : AxisId) (target : Int) (s : State),
    let way (k : InterlockId) : Prop :=
      let e := s.axes.interlocks[k]
      e.enabled = true ∧
      ((e.guarded = a.val ∧ (s.axis a).positionValid = true ∧
          (e.safeLow ≤ (s.axis a).position ∧ (s.axis a).position ≤ e.safeHigh) ∧
          ¬ (e.safeLow ≤ target ∧ target ≤ e.safeHigh) ∧ s.satisfied e = false) ∨
       (e.condition = a.val ∧ ¬ (e.windowLow ≤ target ∧ target ≤ e.windowHigh) ∧
          (s.inside e = false ∨ s.committed e = true)))
    let block (k : InterlockId) : Prop :=
      let e := s.axes.interlocks[k]
      e.enabled = true ∧
      ((e.guarded = a.val ∧ s.satisfied e = false) ∨
       (e.condition = a.val ∧ (s.inside e = false ∨ s.committed e = true)))
    (s.homingObstacle a = none ↔ ∀ k, ¬ block k) ∧
    (∀ k, s.homingObstacle a = some k ↔ block k ∧ ∀ j, j < k → ¬ block j) ∧
    (s.obstacle a target = none ↔ ∀ k, ¬ way k) ∧
    (∀ k, s.obstacle a target = some k ↔ way k ∧ ∀ j, j < k → ¬ way j) ∧
    ∀ e : Interlock,
      (∀ c : AxisId, e.condition = c.val →
        (s.satisfied e = true ↔
          ((s.axis c).state = .idle ∨ (s.axis c).state = .moving ∨
            ((s.axis c).state = .stopping ∧ (s.axis c).positionValid = true)) ∧
          (e.windowLow ≤ (s.axis c).position ∧ (s.axis c).position ≤ e.windowHigh) ∧
          ((s.axis c).state = .moving → e.windowLow ≤ (s.axis c).target ∧ (s.axis c).target ≤ e.windowHigh) ∧
          ∀ m, (s.axis c).slot = some m → e.windowLow ≤ m.target ∧ m.target ≤ e.windowHigh)) ∧
      ∀ g : AxisId, e.guarded = g.val →
        (s.inside e = true ↔ (s.axis g).positionValid = true ∧ e.safeLow ≤ (s.axis g).position ∧
          (s.axis g).position ≤ e.safeHigh) ∧
        (s.committed e = true ↔
          ((s.axis g).state = .moving ∧ ¬ (e.safeLow ≤ (s.axis g).target ∧ (s.axis g).target ≤ e.safeHigh)) ∨
          ∃ m, (s.axis g).slot = some m ∧ m.held ≠ none ∧ ¬ (e.safeLow ≤ m.target ∧ m.target ≤ e.safeHigh))

/-- The speed and the steps of a motion tick (R128), for a MOVING axis within its profile's speed: the choice by
2 × deceleration × D against the square of the velocity, the change by a thousandth of the rate with the remainder carried
(and dropped when the direction of change turns), the floor speed while distance remains, and the steps of the accumulator,
at most D; the motion ends when D is reached. For a STOPPING axis (R131): the change by the stop's deceleration, with no floor
speed, and the steps of the accumulator, bound by the target at a CONTROLLED stop, which completes there, and by the soft
limit in the direction of travel at an EMERGENCY stop with a valid position, which faults there; a stop completes at
velocity 0. For a HOMING axis (R132): the steps of the home speed, without ramps, at most the search travel that is left. -/
def Obligations.MotionTickArithmetic : Prop :=
  (∀ x : Axis, x.state = .moving → x.velocity ≤ x.profile.maxSpeed → x.speedRemainder < 1000 →
    let d : Nat := (x.target - x.position).natAbs
    let y := x.motionArith
    let atLeast : Nat := if d = 0 then 0 else min 50 x.profile.maxSpeed
    let down := 2 * x.profile.deceleration * d ≤ x.velocity ^ 2
    (down →
      let c := x.profile.deceleration + (if x.lastAction = .accelerate then 0 else x.speedRemainder)
      y.velocity = max (x.velocity - c / 1000) atLeast ∧ y.speedRemainder = c % 1000 ∧ y.lastAction = .decelerate) ∧
    (¬ down → x.velocity < x.profile.maxSpeed →
      let c := x.profile.acceleration + (if x.lastAction = .decelerate then 0 else x.speedRemainder)
      y.velocity = max (min (x.velocity + c / 1000) x.profile.maxSpeed) atLeast ∧ y.speedRemainder = c % 1000 ∧
      y.lastAction = .accelerate) ∧
    (¬ down → x.velocity = x.profile.maxSpeed →
      y.velocity = x.velocity ∧ y.speedRemainder = x.speedRemainder ∧ y.lastAction = x.lastAction) ∧
    y.velocity ≤ x.profile.maxSpeed ∧
    y.stepAccumulator = (x.stepAccumulator + y.velocity) % 1000 ∧
    y.burst = some
      { total := min ((x.stepAccumulator + y.velocity) / 1000) d, issued := 0,
        spacing := (x.stepAccumulator + y.velocity) / 1000, ends := if d ≤ (x.stepAccumulator + y.velocity) / 1000 then .arrive else .none } ∧
    y.position = x.position ∧ y.target = x.target ∧ y.state = .moving) ∧
  (∀ (x : Axis) (k : Stop), x.state = .stopping → x.stop = some k → x.speedRemainder < 1000 →
    let rate := if k.kind = .emergency then x.config.emergencyDeceleration else x.profile.deceleration
    let c : Nat := rate + (if x.lastAction = .accelerate then 0 else x.speedRemainder)
    let v : Nat := x.velocity - c / 1000
    let n : Nat := (x.stepAccumulator + v) / 1000
    let d : Nat := (x.target - x.position).natAbs
    let room : Nat := Int.toNat (if x.direction = .positive then x.config.softHigh - x.position
      else x.position - x.config.softLow)
    let y : Axis :=
      { x with velocity := v, speedRemainder := c % 1000, lastAction := .decelerate,
               stepAccumulator := (x.stepAccumulator + v) % 1000 }
    let atRest : BurstEnd := if v = 0 then .complete else .none
    let steps (total : Nat) (ends : BurstEnd) : Axis :=
      { y with burst := some { total := total, issued := 0, spacing := n, ends := ends } }
    (k.kind = .controlled → x.motionArith = if d < n then steps d .complete else steps n atRest) ∧
    (k.kind = .emergency →
      x.motionArith = if x.positionValid = true ∧ room < n then steps room .limit else steps n atRest)) ∧
  ∀ (x : Axis) (h : Homing), x.state = .homing → x.homing = some h →
    let n : Nat := (x.stepAccumulator + x.config.homeSpeed) / 1000
    x.motionArith =
      { x with stepAccumulator := (x.stepAccumulator + x.config.homeSpeed) % 1000,
               burst := some { total := min n (x.config.searchTravel - h.travel), issued := 0, spacing := n,
                               ends := .none } }

/-- The drive time of an offer (R82 to R85): by the velocity as the bell's cap and the ceiling leave it, corrected for the
supply, between the bell's least and its ceiling. It never falls as the velocity rises, nor as the supply falls. -/
def Obligations.DriveTimesFollowTheVelocity : Prop :=
  ∀ (b : BellId) (v : Nat) (s : State),
    let x := s.bell b
    x.driveMin ≤ x.driveMax → x.driveMax ≤ 2000 →
    let ve := min (min (max 1 (min v 127)) x.velocityCap) s.backup.ceiling
    let d0 := x.driveMin + ((x.driveMax - x.driveMin) * (ve - 1) + 63) / 126
    let u := max 200 (min s.hammer.uRaw 280)
    s.strikeFigures b v =
      (ve, max x.driveMin (min ((d0 * 240 + u / 2) / u) (min 2000 (x.driveMax + x.driveMax / 4)))) ∧
    x.driveMin ≤ (s.strikeFigures b v).2 ∧ (s.strikeFigures b v).2 ≤ min 2000 (x.driveMax + x.driveMax / 4) ∧
    (∀ w : Nat, v ≤ w → (s.strikeFigures b v).2 ≤ (s.strikeFigures b w).2) ∧
    ∀ r : Nat, r ≤ s.hammer.uRaw →
      (s.strikeFigures b v).2 ≤ ((s.modHammerDrive fun h => { h with uRaw := r }).strikeFigures b v).2
end

