-- ==== Sys2Proof/Laws/State.lean ====
section
/-! SUPPORT. What each named update of the state leaves: one lemma per field and update, true by `rfl`. -/

namespace Sys2Proof.Machine.State

variable (s : State)

/-! ### `modTime` -/

@[simp] theorem modTime_pending (f : Time → Time) : (s.modTime f).pending = s.pending := rfl
@[simp] theorem modTime_pins (f : Time → Time) : (s.modTime f).pins = s.pins := rfl
@[simp] theorem modTime_time (f : Time → Time) : (s.modTime f).time = f s.time := rfl
@[simp] theorem modTime_backup (f : Time → Time) : (s.modTime f).backup = s.backup := rfl
@[simp] theorem modTime_calendar (f : Time → Time) : (s.modTime f).calendar = s.calendar := rfl
@[simp] theorem modTime_shows (f : Time → Time) : (s.modTime f).shows = s.shows := rfl
@[simp] theorem modTime_channels (f : Time → Time) : (s.modTime f).channels = s.channels := rfl
@[simp] theorem modTime_strikes (f : Time → Time) : (s.modTime f).strikes = s.strikes := rfl
@[simp] theorem modTime_hammer (f : Time → Time) : (s.modTime f).hammer = s.hammer := rfl
@[simp] theorem modTime_axes (f : Time → Time) : (s.modTime f).axes = s.axes := rfl
@[simp] theorem modTime_stage (f : Time → Time) : (s.modTime f).stage = s.stage := rfl
@[simp] theorem modTime_store (f : Time → Time) : (s.modTime f).store = s.store := rfl
@[simp] theorem modTime_ports (f : Time → Time) : (s.modTime f).ports = s.ports := rfl
@[simp] theorem modTime_todo (f : Time → Time) : (s.modTime f).todo = s.todo := rfl

/-! ### `modBackup` -/

@[simp] theorem modBackup_pending (f : Backup → Backup) : (s.modBackup f).pending = s.pending := rfl
@[simp] theorem modBackup_pins (f : Backup → Backup) : (s.modBackup f).pins = s.pins := rfl
@[simp] theorem modBackup_time (f : Backup → Backup) : (s.modBackup f).time = s.time := rfl
@[simp] theorem modBackup_backup (f : Backup → Backup) : (s.modBackup f).backup = f s.backup := rfl
@[simp] theorem modBackup_calendar (f : Backup → Backup) : (s.modBackup f).calendar = s.calendar := rfl
@[simp] theorem modBackup_shows (f : Backup → Backup) : (s.modBackup f).shows = s.shows := rfl
@[simp] theorem modBackup_channels (f : Backup → Backup) : (s.modBackup f).channels = s.channels := rfl
@[simp] theorem modBackup_strikes (f : Backup → Backup) : (s.modBackup f).strikes = s.strikes := rfl
@[simp] theorem modBackup_hammer (f : Backup → Backup) : (s.modBackup f).hammer = s.hammer := rfl
@[simp] theorem modBackup_axes (f : Backup → Backup) : (s.modBackup f).axes = s.axes := rfl
@[simp] theorem modBackup_stage (f : Backup → Backup) : (s.modBackup f).stage = s.stage := rfl
@[simp] theorem modBackup_store (f : Backup → Backup) : (s.modBackup f).store = s.store := rfl
@[simp] theorem modBackup_ports (f : Backup → Backup) : (s.modBackup f).ports = s.ports := rfl
@[simp] theorem modBackup_todo (f : Backup → Backup) : (s.modBackup f).todo = s.todo := rfl

/-! ### `modCalendar` -/

@[simp] theorem modCalendar_pending (f : Calendar → Calendar) : (s.modCalendar f).pending = s.pending := rfl
@[simp] theorem modCalendar_pins (f : Calendar → Calendar) : (s.modCalendar f).pins = s.pins := rfl
@[simp] theorem modCalendar_time (f : Calendar → Calendar) : (s.modCalendar f).time = s.time := rfl
@[simp] theorem modCalendar_backup (f : Calendar → Calendar) : (s.modCalendar f).backup = s.backup := rfl
@[simp] theorem modCalendar_calendar (f : Calendar → Calendar) : (s.modCalendar f).calendar = f s.calendar := rfl
@[simp] theorem modCalendar_shows (f : Calendar → Calendar) : (s.modCalendar f).shows = s.shows := rfl
@[simp] theorem modCalendar_channels (f : Calendar → Calendar) : (s.modCalendar f).channels = s.channels := rfl
@[simp] theorem modCalendar_strikes (f : Calendar → Calendar) : (s.modCalendar f).strikes = s.strikes := rfl
@[simp] theorem modCalendar_hammer (f : Calendar → Calendar) : (s.modCalendar f).hammer = s.hammer := rfl
@[simp] theorem modCalendar_axes (f : Calendar → Calendar) : (s.modCalendar f).axes = s.axes := rfl
@[simp] theorem modCalendar_stage (f : Calendar → Calendar) : (s.modCalendar f).stage = s.stage := rfl
@[simp] theorem modCalendar_store (f : Calendar → Calendar) : (s.modCalendar f).store = s.store := rfl
@[simp] theorem modCalendar_ports (f : Calendar → Calendar) : (s.modCalendar f).ports = s.ports := rfl
@[simp] theorem modCalendar_todo (f : Calendar → Calendar) : (s.modCalendar f).todo = s.todo := rfl

/-! ### `modShows` -/

@[simp] theorem modShows_pending (f : Shows → Shows) : (s.modShows f).pending = s.pending := rfl
@[simp] theorem modShows_pins (f : Shows → Shows) : (s.modShows f).pins = s.pins := rfl
@[simp] theorem modShows_time (f : Shows → Shows) : (s.modShows f).time = s.time := rfl
@[simp] theorem modShows_backup (f : Shows → Shows) : (s.modShows f).backup = s.backup := rfl
@[simp] theorem modShows_calendar (f : Shows → Shows) : (s.modShows f).calendar = s.calendar := rfl
@[simp] theorem modShows_shows (f : Shows → Shows) : (s.modShows f).shows = f s.shows := rfl
@[simp] theorem modShows_channels (f : Shows → Shows) : (s.modShows f).channels = s.channels := rfl
@[simp] theorem modShows_strikes (f : Shows → Shows) : (s.modShows f).strikes = s.strikes := rfl
@[simp] theorem modShows_hammer (f : Shows → Shows) : (s.modShows f).hammer = s.hammer := rfl
@[simp] theorem modShows_axes (f : Shows → Shows) : (s.modShows f).axes = s.axes := rfl
@[simp] theorem modShows_stage (f : Shows → Shows) : (s.modShows f).stage = s.stage := rfl
@[simp] theorem modShows_store (f : Shows → Shows) : (s.modShows f).store = s.store := rfl
@[simp] theorem modShows_ports (f : Shows → Shows) : (s.modShows f).ports = s.ports := rfl
@[simp] theorem modShows_todo (f : Shows → Shows) : (s.modShows f).todo = s.todo := rfl

/-! ### `modStrikes` -/

@[simp] theorem modStrikes_pending (f : Strikes → Strikes) : (s.modStrikes f).pending = s.pending := rfl
@[simp] theorem modStrikes_pins (f : Strikes → Strikes) : (s.modStrikes f).pins = s.pins := rfl
@[simp] theorem modStrikes_time (f : Strikes → Strikes) : (s.modStrikes f).time = s.time := rfl
@[simp] theorem modStrikes_backup (f : Strikes → Strikes) : (s.modStrikes f).backup = s.backup := rfl
@[simp] theorem modStrikes_calendar (f : Strikes → Strikes) : (s.modStrikes f).calendar = s.calendar := rfl
@[simp] theorem modStrikes_shows (f : Strikes → Strikes) : (s.modStrikes f).shows = s.shows := rfl
@[simp] theorem modStrikes_channels (f : Strikes → Strikes) : (s.modStrikes f).channels = s.channels := rfl
@[simp] theorem modStrikes_strikes (f : Strikes → Strikes) : (s.modStrikes f).strikes = f s.strikes := rfl
@[simp] theorem modStrikes_hammer (f : Strikes → Strikes) : (s.modStrikes f).hammer = s.hammer := rfl
@[simp] theorem modStrikes_axes (f : Strikes → Strikes) : (s.modStrikes f).axes = s.axes := rfl
@[simp] theorem modStrikes_stage (f : Strikes → Strikes) : (s.modStrikes f).stage = s.stage := rfl
@[simp] theorem modStrikes_store (f : Strikes → Strikes) : (s.modStrikes f).store = s.store := rfl
@[simp] theorem modStrikes_ports (f : Strikes → Strikes) : (s.modStrikes f).ports = s.ports := rfl
@[simp] theorem modStrikes_todo (f : Strikes → Strikes) : (s.modStrikes f).todo = s.todo := rfl

/-! ### `modHammerDrive` -/

@[simp] theorem modHammerDrive_pending (f : HammerDrive → HammerDrive) :
    (s.modHammerDrive f).pending = s.pending := rfl
@[simp] theorem modHammerDrive_pins (f : HammerDrive → HammerDrive) : (s.modHammerDrive f).pins = s.pins := rfl
@[simp] theorem modHammerDrive_time (f : HammerDrive → HammerDrive) : (s.modHammerDrive f).time = s.time := rfl
@[simp] theorem modHammerDrive_backup (f : HammerDrive → HammerDrive) : (s.modHammerDrive f).backup = s.backup := rfl
@[simp] theorem modHammerDrive_calendar (f : HammerDrive → HammerDrive) :
    (s.modHammerDrive f).calendar = s.calendar := rfl
@[simp] theorem modHammerDrive_shows (f : HammerDrive → HammerDrive) : (s.modHammerDrive f).shows = s.shows := rfl
@[simp] theorem modHammerDrive_channels (f : HammerDrive → HammerDrive) :
    (s.modHammerDrive f).channels = s.channels := rfl
@[simp] theorem modHammerDrive_strikes (f : HammerDrive → HammerDrive) :
    (s.modHammerDrive f).strikes = s.strikes := rfl
@[simp] theorem modHammerDrive_hammer (f : HammerDrive → HammerDrive) :
    (s.modHammerDrive f).hammer = f s.hammer := rfl
@[simp] theorem modHammerDrive_axes (f : HammerDrive → HammerDrive) : (s.modHammerDrive f).axes = s.axes := rfl
@[simp] theorem modHammerDrive_stage (f : HammerDrive → HammerDrive) : (s.modHammerDrive f).stage = s.stage := rfl
@[simp] theorem modHammerDrive_store (f : HammerDrive → HammerDrive) : (s.modHammerDrive f).store = s.store := rfl
@[simp] theorem modHammerDrive_ports (f : HammerDrive → HammerDrive) : (s.modHammerDrive f).ports = s.ports := rfl
@[simp] theorem modHammerDrive_todo (f : HammerDrive → HammerDrive) : (s.modHammerDrive f).todo = s.todo := rfl

/-! ### `modAxes` -/

@[simp] theorem modAxes_pending (f : Axes → Axes) : (s.modAxes f).pending = s.pending := rfl
@[simp] theorem modAxes_pins (f : Axes → Axes) : (s.modAxes f).pins = s.pins := rfl
@[simp] theorem modAxes_time (f : Axes → Axes) : (s.modAxes f).time = s.time := rfl
@[simp] theorem modAxes_backup (f : Axes → Axes) : (s.modAxes f).backup = s.backup := rfl
@[simp] theorem modAxes_calendar (f : Axes → Axes) : (s.modAxes f).calendar = s.calendar := rfl
@[simp] theorem modAxes_shows (f : Axes → Axes) : (s.modAxes f).shows = s.shows := rfl
@[simp] theorem modAxes_channels (f : Axes → Axes) : (s.modAxes f).channels = s.channels := rfl
@[simp] theorem modAxes_strikes (f : Axes → Axes) : (s.modAxes f).strikes = s.strikes := rfl
@[simp] theorem modAxes_hammer (f : Axes → Axes) : (s.modAxes f).hammer = s.hammer := rfl
@[simp] theorem modAxes_axes (f : Axes → Axes) : (s.modAxes f).axes = f s.axes := rfl
@[simp] theorem modAxes_stage (f : Axes → Axes) : (s.modAxes f).stage = s.stage := rfl
@[simp] theorem modAxes_store (f : Axes → Axes) : (s.modAxes f).store = s.store := rfl
@[simp] theorem modAxes_ports (f : Axes → Axes) : (s.modAxes f).ports = s.ports := rfl
@[simp] theorem modAxes_todo (f : Axes → Axes) : (s.modAxes f).todo = s.todo := rfl

/-! ### `modStage` -/

@[simp] theorem modStage_pending (f : Stage → Stage) : (s.modStage f).pending = s.pending := rfl
@[simp] theorem modStage_pins (f : Stage → Stage) : (s.modStage f).pins = s.pins := rfl
@[simp] theorem modStage_time (f : Stage → Stage) : (s.modStage f).time = s.time := rfl
@[simp] theorem modStage_backup (f : Stage → Stage) : (s.modStage f).backup = s.backup := rfl
@[simp] theorem modStage_calendar (f : Stage → Stage) : (s.modStage f).calendar = s.calendar := rfl
@[simp] theorem modStage_shows (f : Stage → Stage) : (s.modStage f).shows = s.shows := rfl
@[simp] theorem modStage_channels (f : Stage → Stage) : (s.modStage f).channels = s.channels := rfl
@[simp] theorem modStage_strikes (f : Stage → Stage) : (s.modStage f).strikes = s.strikes := rfl
@[simp] theorem modStage_hammer (f : Stage → Stage) : (s.modStage f).hammer = s.hammer := rfl
@[simp] theorem modStage_axes (f : Stage → Stage) : (s.modStage f).axes = s.axes := rfl
@[simp] theorem modStage_stage (f : Stage → Stage) : (s.modStage f).stage = f s.stage := rfl
@[simp] theorem modStage_store (f : Stage → Stage) : (s.modStage f).store = s.store := rfl
@[simp] theorem modStage_ports (f : Stage → Stage) : (s.modStage f).ports = s.ports := rfl
@[simp] theorem modStage_todo (f : Stage → Stage) : (s.modStage f).todo = s.todo := rfl

/-! ### `modStore` -/

@[simp] theorem modStore_pending (f : Store → Store) : (s.modStore f).pending = s.pending := rfl
@[simp] theorem modStore_pins (f : Store → Store) : (s.modStore f).pins = s.pins := rfl
@[simp] theorem modStore_time (f : Store → Store) : (s.modStore f).time = s.time := rfl
@[simp] theorem modStore_backup (f : Store → Store) : (s.modStore f).backup = s.backup := rfl
@[simp] theorem modStore_calendar (f : Store → Store) : (s.modStore f).calendar = s.calendar := rfl
@[simp] theorem modStore_shows (f : Store → Store) : (s.modStore f).shows = s.shows := rfl
@[simp] theorem modStore_channels (f : Store → Store) : (s.modStore f).channels = s.channels := rfl
@[simp] theorem modStore_strikes (f : Store → Store) : (s.modStore f).strikes = s.strikes := rfl
@[simp] theorem modStore_hammer (f : Store → Store) : (s.modStore f).hammer = s.hammer := rfl
@[simp] theorem modStore_axes (f : Store → Store) : (s.modStore f).axes = s.axes := rfl
@[simp] theorem modStore_stage (f : Store → Store) : (s.modStore f).stage = s.stage := rfl
@[simp] theorem modStore_store (f : Store → Store) : (s.modStore f).store = f s.store := rfl
@[simp] theorem modStore_ports (f : Store → Store) : (s.modStore f).ports = s.ports := rfl
@[simp] theorem modStore_todo (f : Store → Store) : (s.modStore f).todo = s.todo := rfl

/-! ### `modTodo` -/

@[simp] theorem modTodo_pending (f : Todo → Todo) : (s.modTodo f).pending = s.pending := rfl
@[simp] theorem modTodo_pins (f : Todo → Todo) : (s.modTodo f).pins = s.pins := rfl
@[simp] theorem modTodo_time (f : Todo → Todo) : (s.modTodo f).time = s.time := rfl
@[simp] theorem modTodo_backup (f : Todo → Todo) : (s.modTodo f).backup = s.backup := rfl
@[simp] theorem modTodo_calendar (f : Todo → Todo) : (s.modTodo f).calendar = s.calendar := rfl
@[simp] theorem modTodo_shows (f : Todo → Todo) : (s.modTodo f).shows = s.shows := rfl
@[simp] theorem modTodo_channels (f : Todo → Todo) : (s.modTodo f).channels = s.channels := rfl
@[simp] theorem modTodo_strikes (f : Todo → Todo) : (s.modTodo f).strikes = s.strikes := rfl
@[simp] theorem modTodo_hammer (f : Todo → Todo) : (s.modTodo f).hammer = s.hammer := rfl
@[simp] theorem modTodo_axes (f : Todo → Todo) : (s.modTodo f).axes = s.axes := rfl
@[simp] theorem modTodo_stage (f : Todo → Todo) : (s.modTodo f).stage = s.stage := rfl
@[simp] theorem modTodo_store (f : Todo → Todo) : (s.modTodo f).store = s.store := rfl
@[simp] theorem modTodo_ports (f : Todo → Todo) : (s.modTodo f).ports = s.ports := rfl
@[simp] theorem modTodo_todo (f : Todo → Todo) : (s.modTodo f).todo = f s.todo := rfl

/-! ### `modPort` -/

@[simp] theorem modPort_pending (p : PortId) (f : Port → Port) : (s.modPort p f).pending = s.pending := rfl
@[simp] theorem modPort_pins (p : PortId) (f : Port → Port) : (s.modPort p f).pins = s.pins := rfl
@[simp] theorem modPort_time (p : PortId) (f : Port → Port) : (s.modPort p f).time = s.time := rfl
@[simp] theorem modPort_backup (p : PortId) (f : Port → Port) : (s.modPort p f).backup = s.backup := rfl
@[simp] theorem modPort_calendar (p : PortId) (f : Port → Port) : (s.modPort p f).calendar = s.calendar := rfl
@[simp] theorem modPort_shows (p : PortId) (f : Port → Port) : (s.modPort p f).shows = s.shows := rfl
@[simp] theorem modPort_channels (p : PortId) (f : Port → Port) : (s.modPort p f).channels = s.channels := rfl
@[simp] theorem modPort_strikes (p : PortId) (f : Port → Port) : (s.modPort p f).strikes = s.strikes := rfl
@[simp] theorem modPort_hammer (p : PortId) (f : Port → Port) : (s.modPort p f).hammer = s.hammer := rfl
@[simp] theorem modPort_axes (p : PortId) (f : Port → Port) : (s.modPort p f).axes = s.axes := rfl
@[simp] theorem modPort_stage (p : PortId) (f : Port → Port) : (s.modPort p f).stage = s.stage := rfl
@[simp] theorem modPort_store (p : PortId) (f : Port → Port) : (s.modPort p f).store = s.store := rfl
@[simp] theorem modPort_ports (p : PortId) (f : Port → Port) :
    (s.modPort p f).ports = s.ports.set p.idx (f s.ports[p.idx]) := rfl
@[simp] theorem modPort_todo (p : PortId) (f : Port → Port) : (s.modPort p f).todo = s.todo := rfl

/-! ### `modPlayer` -/

@[simp] theorem modPlayer_pending (p : PlayerId) (f : Player → Player) : (s.modPlayer p f).pending = s.pending := rfl
@[simp] theorem modPlayer_pins (p : PlayerId) (f : Player → Player) : (s.modPlayer p f).pins = s.pins := rfl
@[simp] theorem modPlayer_time (p : PlayerId) (f : Player → Player) : (s.modPlayer p f).time = s.time := rfl
@[simp] theorem modPlayer_backup (p : PlayerId) (f : Player → Player) : (s.modPlayer p f).backup = s.backup := rfl
@[simp] theorem modPlayer_calendar (p : PlayerId) (f : Player → Player) :
    (s.modPlayer p f).calendar = s.calendar := rfl
@[simp] theorem modPlayer_shows (p : PlayerId) (f : Player → Player) :
    (s.modPlayer p f).shows = { s.shows with players := s.shows.players.set p (f s.shows.players[p]) } := rfl
@[simp] theorem modPlayer_channels (p : PlayerId) (f : Player → Player) :
    (s.modPlayer p f).channels = s.channels := rfl
@[simp] theorem modPlayer_strikes (p : PlayerId) (f : Player → Player) : (s.modPlayer p f).strikes = s.strikes := rfl
@[simp] theorem modPlayer_hammer (p : PlayerId) (f : Player → Player) : (s.modPlayer p f).hammer = s.hammer := rfl
@[simp] theorem modPlayer_axes (p : PlayerId) (f : Player → Player) : (s.modPlayer p f).axes = s.axes := rfl
@[simp] theorem modPlayer_stage (p : PlayerId) (f : Player → Player) : (s.modPlayer p f).stage = s.stage := rfl
@[simp] theorem modPlayer_store (p : PlayerId) (f : Player → Player) : (s.modPlayer p f).store = s.store := rfl
@[simp] theorem modPlayer_ports (p : PlayerId) (f : Player → Player) : (s.modPlayer p f).ports = s.ports := rfl
@[simp] theorem modPlayer_todo (p : PlayerId) (f : Player → Player) : (s.modPlayer p f).todo = s.todo := rfl

/-! ### `modChannel` -/

@[simp] theorem modChannel_pending (p : PlayerId) (f : Channel → Channel) :
    (s.modChannel p f).pending = s.pending := rfl
@[simp] theorem modChannel_pins (p : PlayerId) (f : Channel → Channel) : (s.modChannel p f).pins = s.pins := rfl
@[simp] theorem modChannel_time (p : PlayerId) (f : Channel → Channel) : (s.modChannel p f).time = s.time := rfl
@[simp] theorem modChannel_backup (p : PlayerId) (f : Channel → Channel) : (s.modChannel p f).backup = s.backup := rfl
@[simp] theorem modChannel_calendar (p : PlayerId) (f : Channel → Channel) :
    (s.modChannel p f).calendar = s.calendar := rfl
@[simp] theorem modChannel_shows (p : PlayerId) (f : Channel → Channel) : (s.modChannel p f).shows = s.shows := rfl
@[simp] theorem modChannel_channels (p : PlayerId) (f : Channel → Channel) :
    (s.modChannel p f).channels = s.channels.set p (f s.channels[p]) := rfl
@[simp] theorem modChannel_strikes (p : PlayerId) (f : Channel → Channel) :
    (s.modChannel p f).strikes = s.strikes := rfl
@[simp] theorem modChannel_hammer (p : PlayerId) (f : Channel → Channel) : (s.modChannel p f).hammer = s.hammer := rfl
@[simp] theorem modChannel_axes (p : PlayerId) (f : Channel → Channel) : (s.modChannel p f).axes = s.axes := rfl
@[simp] theorem modChannel_stage (p : PlayerId) (f : Channel → Channel) : (s.modChannel p f).stage = s.stage := rfl
@[simp] theorem modChannel_store (p : PlayerId) (f : Channel → Channel) : (s.modChannel p f).store = s.store := rfl
@[simp] theorem modChannel_ports (p : PlayerId) (f : Channel → Channel) : (s.modChannel p f).ports = s.ports := rfl
@[simp] theorem modChannel_todo (p : PlayerId) (f : Channel → Channel) : (s.modChannel p f).todo = s.todo := rfl

/-! ### `modBell` -/

@[simp] theorem modBell_pending (b : BellId) (f : Bell → Bell) : (s.modBell b f).pending = s.pending := rfl
@[simp] theorem modBell_pins (b : BellId) (f : Bell → Bell) : (s.modBell b f).pins = s.pins := rfl
@[simp] theorem modBell_time (b : BellId) (f : Bell → Bell) : (s.modBell b f).time = s.time := rfl
@[simp] theorem modBell_backup (b : BellId) (f : Bell → Bell) : (s.modBell b f).backup = s.backup := rfl
@[simp] theorem modBell_calendar (b : BellId) (f : Bell → Bell) : (s.modBell b f).calendar = s.calendar := rfl
@[simp] theorem modBell_shows (b : BellId) (f : Bell → Bell) : (s.modBell b f).shows = s.shows := rfl
@[simp] theorem modBell_channels (b : BellId) (f : Bell → Bell) : (s.modBell b f).channels = s.channels := rfl
@[simp] theorem modBell_strikes (b : BellId) (f : Bell → Bell) :
    (s.modBell b f).strikes = { s.strikes with bells := s.strikes.bells.set b (f s.strikes.bells[b]) } := rfl
@[simp] theorem modBell_hammer (b : BellId) (f : Bell → Bell) : (s.modBell b f).hammer = s.hammer := rfl
@[simp] theorem modBell_axes (b : BellId) (f : Bell → Bell) : (s.modBell b f).axes = s.axes := rfl
@[simp] theorem modBell_stage (b : BellId) (f : Bell → Bell) : (s.modBell b f).stage = s.stage := rfl
@[simp] theorem modBell_store (b : BellId) (f : Bell → Bell) : (s.modBell b f).store = s.store := rfl
@[simp] theorem modBell_ports (b : BellId) (f : Bell → Bell) : (s.modBell b f).ports = s.ports := rfl
@[simp] theorem modBell_todo (b : BellId) (f : Bell → Bell) : (s.modBell b f).todo = s.todo := rfl

/-! ### `setRoll` -/

@[simp] theorem setRoll_pending (r : RollId) (x : Option Roll) : (s.setRoll r x).pending = s.pending := rfl
@[simp] theorem setRoll_pins (r : RollId) (x : Option Roll) : (s.setRoll r x).pins = s.pins := rfl
@[simp] theorem setRoll_time (r : RollId) (x : Option Roll) : (s.setRoll r x).time = s.time := rfl
@[simp] theorem setRoll_backup (r : RollId) (x : Option Roll) : (s.setRoll r x).backup = s.backup := rfl
@[simp] theorem setRoll_calendar (r : RollId) (x : Option Roll) : (s.setRoll r x).calendar = s.calendar := rfl
@[simp] theorem setRoll_shows (r : RollId) (x : Option Roll) : (s.setRoll r x).shows = s.shows := rfl
@[simp] theorem setRoll_channels (r : RollId) (x : Option Roll) : (s.setRoll r x).channels = s.channels := rfl
@[simp] theorem setRoll_strikes (r : RollId) (x : Option Roll) :
    (s.setRoll r x).strikes = { s.strikes with rolls := s.strikes.rolls.set r x } := rfl
@[simp] theorem setRoll_hammer (r : RollId) (x : Option Roll) : (s.setRoll r x).hammer = s.hammer := rfl
@[simp] theorem setRoll_axes (r : RollId) (x : Option Roll) : (s.setRoll r x).axes = s.axes := rfl
@[simp] theorem setRoll_stage (r : RollId) (x : Option Roll) : (s.setRoll r x).stage = s.stage := rfl
@[simp] theorem setRoll_store (r : RollId) (x : Option Roll) : (s.setRoll r x).store = s.store := rfl
@[simp] theorem setRoll_ports (r : RollId) (x : Option Roll) : (s.setRoll r x).ports = s.ports := rfl
@[simp] theorem setRoll_todo (r : RollId) (x : Option Roll) : (s.setRoll r x).todo = s.todo := rfl

/-! ### `modHammer` -/

@[simp] theorem modHammer_pending (b : BellId) (f : Hammer → Hammer) : (s.modHammer b f).pending = s.pending := rfl
@[simp] theorem modHammer_pins (b : BellId) (f : Hammer → Hammer) : (s.modHammer b f).pins = s.pins := rfl
@[simp] theorem modHammer_time (b : BellId) (f : Hammer → Hammer) : (s.modHammer b f).time = s.time := rfl
@[simp] theorem modHammer_backup (b : BellId) (f : Hammer → Hammer) : (s.modHammer b f).backup = s.backup := rfl
@[simp] theorem modHammer_calendar (b : BellId) (f : Hammer → Hammer) : (s.modHammer b f).calendar = s.calendar := rfl
@[simp] theorem modHammer_shows (b : BellId) (f : Hammer → Hammer) : (s.modHammer b f).shows = s.shows := rfl
@[simp] theorem modHammer_channels (b : BellId) (f : Hammer → Hammer) : (s.modHammer b f).channels = s.channels := rfl
@[simp] theorem modHammer_strikes (b : BellId) (f : Hammer → Hammer) : (s.modHammer b f).strikes = s.strikes := rfl
@[simp] theorem modHammer_hammer (b : BellId) (f : Hammer → Hammer) :
    (s.modHammer b f).hammer = { s.hammer with hammers := s.hammer.hammers.set b (f s.hammer.hammers[b]) } := rfl
@[simp] theorem modHammer_axes (b : BellId) (f : Hammer → Hammer) : (s.modHammer b f).axes = s.axes := rfl
@[simp] theorem modHammer_stage (b : BellId) (f : Hammer → Hammer) : (s.modHammer b f).stage = s.stage := rfl
@[simp] theorem modHammer_store (b : BellId) (f : Hammer → Hammer) : (s.modHammer b f).store = s.store := rfl
@[simp] theorem modHammer_ports (b : BellId) (f : Hammer → Hammer) : (s.modHammer b f).ports = s.ports := rfl
@[simp] theorem modHammer_todo (b : BellId) (f : Hammer → Hammer) : (s.modHammer b f).todo = s.todo := rfl

/-! ### `modAxis` -/

@[simp] theorem modAxis_pending (a : AxisId) (f : Axis → Axis) : (s.modAxis a f).pending = s.pending := rfl
@[simp] theorem modAxis_pins (a : AxisId) (f : Axis → Axis) : (s.modAxis a f).pins = s.pins := rfl
@[simp] theorem modAxis_time (a : AxisId) (f : Axis → Axis) : (s.modAxis a f).time = s.time := rfl
@[simp] theorem modAxis_backup (a : AxisId) (f : Axis → Axis) : (s.modAxis a f).backup = s.backup := rfl
@[simp] theorem modAxis_calendar (a : AxisId) (f : Axis → Axis) : (s.modAxis a f).calendar = s.calendar := rfl
@[simp] theorem modAxis_shows (a : AxisId) (f : Axis → Axis) : (s.modAxis a f).shows = s.shows := rfl
@[simp] theorem modAxis_channels (a : AxisId) (f : Axis → Axis) : (s.modAxis a f).channels = s.channels := rfl
@[simp] theorem modAxis_strikes (a : AxisId) (f : Axis → Axis) : (s.modAxis a f).strikes = s.strikes := rfl
@[simp] theorem modAxis_hammer (a : AxisId) (f : Axis → Axis) : (s.modAxis a f).hammer = s.hammer := rfl
@[simp] theorem modAxis_axes (a : AxisId) (f : Axis → Axis) :
    (s.modAxis a f).axes = { s.axes with axes := s.axes.axes.set a (f s.axes.axes[a]) } := rfl
@[simp] theorem modAxis_stage (a : AxisId) (f : Axis → Axis) : (s.modAxis a f).stage = s.stage := rfl
@[simp] theorem modAxis_store (a : AxisId) (f : Axis → Axis) : (s.modAxis a f).store = s.store := rfl
@[simp] theorem modAxis_ports (a : AxisId) (f : Axis → Axis) : (s.modAxis a f).ports = s.ports := rfl
@[simp] theorem modAxis_todo (a : AxisId) (f : Axis → Axis) : (s.modAxis a f).todo = s.todo := rfl

/-! ### `modDir` -/

@[simp] theorem modDir_pending (p : ProgId) (f : DirEntry → DirEntry) : (s.modDir p f).pending = s.pending := rfl
@[simp] theorem modDir_pins (p : ProgId) (f : DirEntry → DirEntry) : (s.modDir p f).pins = s.pins := rfl
@[simp] theorem modDir_time (p : ProgId) (f : DirEntry → DirEntry) : (s.modDir p f).time = s.time := rfl
@[simp] theorem modDir_backup (p : ProgId) (f : DirEntry → DirEntry) : (s.modDir p f).backup = s.backup := rfl
@[simp] theorem modDir_calendar (p : ProgId) (f : DirEntry → DirEntry) : (s.modDir p f).calendar = s.calendar := rfl
@[simp] theorem modDir_shows (p : ProgId) (f : DirEntry → DirEntry) : (s.modDir p f).shows = s.shows := rfl
@[simp] theorem modDir_channels (p : ProgId) (f : DirEntry → DirEntry) : (s.modDir p f).channels = s.channels := rfl
@[simp] theorem modDir_strikes (p : ProgId) (f : DirEntry → DirEntry) : (s.modDir p f).strikes = s.strikes := rfl
@[simp] theorem modDir_hammer (p : ProgId) (f : DirEntry → DirEntry) : (s.modDir p f).hammer = s.hammer := rfl
@[simp] theorem modDir_axes (p : ProgId) (f : DirEntry → DirEntry) : (s.modDir p f).axes = s.axes := rfl
@[simp] theorem modDir_stage (p : ProgId) (f : DirEntry → DirEntry) : (s.modDir p f).stage = s.stage := rfl
@[simp] theorem modDir_store (p : ProgId) (f : DirEntry → DirEntry) :
    (s.modDir p f).store = { s.store with dir := s.store.dir.set p (f s.store.dir[p]) } := rfl
@[simp] theorem modDir_ports (p : ProgId) (f : DirEntry → DirEntry) : (s.modDir p f).ports = s.ports := rfl
@[simp] theorem modDir_todo (p : ProgId) (f : DirEntry → DirEntry) : (s.modDir p f).todo = s.todo := rfl

/-! ### `countCalendar` -/

@[simp] theorem countCalendar_pending (f : CalendarCounters → CalendarCounters) :
    (s.countCalendar f).pending = s.pending := rfl
@[simp] theorem countCalendar_pins (f : CalendarCounters → CalendarCounters) :
    (s.countCalendar f).pins = s.pins := rfl
@[simp] theorem countCalendar_time (f : CalendarCounters → CalendarCounters) :
    (s.countCalendar f).time = s.time := rfl
@[simp] theorem countCalendar_backup (f : CalendarCounters → CalendarCounters) :
    (s.countCalendar f).backup = s.backup := rfl
@[simp] theorem countCalendar_calendar (f : CalendarCounters → CalendarCounters) :
    (s.countCalendar f).calendar = { s.calendar with counters := f s.calendar.counters } := rfl
@[simp] theorem countCalendar_shows (f : CalendarCounters → CalendarCounters) :
    (s.countCalendar f).shows = s.shows := rfl
@[simp] theorem countCalendar_channels (f : CalendarCounters → CalendarCounters) :
    (s.countCalendar f).channels = s.channels := rfl
@[simp] theorem countCalendar_strikes (f : CalendarCounters → CalendarCounters) :
    (s.countCalendar f).strikes = s.strikes := rfl
@[simp] theorem countCalendar_hammer (f : CalendarCounters → CalendarCounters) :
    (s.countCalendar f).hammer = s.hammer := rfl
@[simp] theorem countCalendar_axes (f : CalendarCounters → CalendarCounters) :
    (s.countCalendar f).axes = s.axes := rfl
@[simp] theorem countCalendar_stage (f : CalendarCounters → CalendarCounters) :
    (s.countCalendar f).stage = s.stage := rfl
@[simp] theorem countCalendar_store (f : CalendarCounters → CalendarCounters) :
    (s.countCalendar f).store = s.store := rfl
@[simp] theorem countCalendar_ports (f : CalendarCounters → CalendarCounters) :
    (s.countCalendar f).ports = s.ports := rfl
@[simp] theorem countCalendar_todo (f : CalendarCounters → CalendarCounters) :
    (s.countCalendar f).todo = s.todo := rfl

/-! ### `countShow` -/

@[simp] theorem countShow_pending (f : ShowCounters → ShowCounters) : (s.countShow f).pending = s.pending := rfl
@[simp] theorem countShow_pins (f : ShowCounters → ShowCounters) : (s.countShow f).pins = s.pins := rfl
@[simp] theorem countShow_time (f : ShowCounters → ShowCounters) : (s.countShow f).time = s.time := rfl
@[simp] theorem countShow_backup (f : ShowCounters → ShowCounters) : (s.countShow f).backup = s.backup := rfl
@[simp] theorem countShow_calendar (f : ShowCounters → ShowCounters) : (s.countShow f).calendar = s.calendar := rfl
@[simp] theorem countShow_shows (f : ShowCounters → ShowCounters) :
    (s.countShow f).shows = { s.shows with counters := f s.shows.counters } := rfl
@[simp] theorem countShow_channels (f : ShowCounters → ShowCounters) : (s.countShow f).channels = s.channels := rfl
@[simp] theorem countShow_strikes (f : ShowCounters → ShowCounters) : (s.countShow f).strikes = s.strikes := rfl
@[simp] theorem countShow_hammer (f : ShowCounters → ShowCounters) : (s.countShow f).hammer = s.hammer := rfl
@[simp] theorem countShow_axes (f : ShowCounters → ShowCounters) : (s.countShow f).axes = s.axes := rfl
@[simp] theorem countShow_stage (f : ShowCounters → ShowCounters) : (s.countShow f).stage = s.stage := rfl
@[simp] theorem countShow_store (f : ShowCounters → ShowCounters) : (s.countShow f).store = s.store := rfl
@[simp] theorem countShow_ports (f : ShowCounters → ShowCounters) : (s.countShow f).ports = s.ports := rfl
@[simp] theorem countShow_todo (f : ShowCounters → ShowCounters) : (s.countShow f).todo = s.todo := rfl

/-! ### `countStrike` -/

@[simp] theorem countStrike_pending (f : StrikeCounters → StrikeCounters) :
    (s.countStrike f).pending = s.pending := rfl
@[simp] theorem countStrike_pins (f : StrikeCounters → StrikeCounters) : (s.countStrike f).pins = s.pins := rfl
@[simp] theorem countStrike_time (f : StrikeCounters → StrikeCounters) : (s.countStrike f).time = s.time := rfl
@[simp] theorem countStrike_backup (f : StrikeCounters → StrikeCounters) : (s.countStrike f).backup = s.backup := rfl
@[simp] theorem countStrike_calendar (f : StrikeCounters → StrikeCounters) :
    (s.countStrike f).calendar = s.calendar := rfl
@[simp] theorem countStrike_shows (f : StrikeCounters → StrikeCounters) : (s.countStrike f).shows = s.shows := rfl
@[simp] theorem countStrike_channels (f : StrikeCounters → StrikeCounters) :
    (s.countStrike f).channels = s.channels := rfl
@[simp] theorem countStrike_strikes (f : StrikeCounters → StrikeCounters) :
    (s.countStrike f).strikes = { s.strikes with counters := f s.strikes.counters } := rfl
@[simp] theorem countStrike_hammer (f : StrikeCounters → StrikeCounters) : (s.countStrike f).hammer = s.hammer := rfl
@[simp] theorem countStrike_axes (f : StrikeCounters → StrikeCounters) : (s.countStrike f).axes = s.axes := rfl
@[simp] theorem countStrike_stage (f : StrikeCounters → StrikeCounters) : (s.countStrike f).stage = s.stage := rfl
@[simp] theorem countStrike_store (f : StrikeCounters → StrikeCounters) : (s.countStrike f).store = s.store := rfl
@[simp] theorem countStrike_ports (f : StrikeCounters → StrikeCounters) : (s.countStrike f).ports = s.ports := rfl
@[simp] theorem countStrike_todo (f : StrikeCounters → StrikeCounters) : (s.countStrike f).todo = s.todo := rfl

/-! ### `countHammer` -/

@[simp] theorem countHammer_pending (f : HammerCounters → HammerCounters) :
    (s.countHammer f).pending = s.pending := rfl
@[simp] theorem countHammer_pins (f : HammerCounters → HammerCounters) : (s.countHammer f).pins = s.pins := rfl
@[simp] theorem countHammer_time (f : HammerCounters → HammerCounters) : (s.countHammer f).time = s.time := rfl
@[simp] theorem countHammer_backup (f : HammerCounters → HammerCounters) : (s.countHammer f).backup = s.backup := rfl
@[simp] theorem countHammer_calendar (f : HammerCounters → HammerCounters) :
    (s.countHammer f).calendar = s.calendar := rfl
@[simp] theorem countHammer_shows (f : HammerCounters → HammerCounters) : (s.countHammer f).shows = s.shows := rfl
@[simp] theorem countHammer_channels (f : HammerCounters → HammerCounters) :
    (s.countHammer f).channels = s.channels := rfl
@[simp] theorem countHammer_strikes (f : HammerCounters → HammerCounters) :
    (s.countHammer f).strikes = s.strikes := rfl
@[simp] theorem countHammer_hammer (f : HammerCounters → HammerCounters) :
    (s.countHammer f).hammer = { s.hammer with counters := f s.hammer.counters } := rfl
@[simp] theorem countHammer_axes (f : HammerCounters → HammerCounters) : (s.countHammer f).axes = s.axes := rfl
@[simp] theorem countHammer_stage (f : HammerCounters → HammerCounters) : (s.countHammer f).stage = s.stage := rfl
@[simp] theorem countHammer_store (f : HammerCounters → HammerCounters) : (s.countHammer f).store = s.store := rfl
@[simp] theorem countHammer_ports (f : HammerCounters → HammerCounters) : (s.countHammer f).ports = s.ports := rfl
@[simp] theorem countHammer_todo (f : HammerCounters → HammerCounters) : (s.countHammer f).todo = s.todo := rfl

/-! ### `countAxis` -/

@[simp] theorem countAxis_pending (f : AxisCounters → AxisCounters) : (s.countAxis f).pending = s.pending := rfl
@[simp] theorem countAxis_pins (f : AxisCounters → AxisCounters) : (s.countAxis f).pins = s.pins := rfl
@[simp] theorem countAxis_time (f : AxisCounters → AxisCounters) : (s.countAxis f).time = s.time := rfl
@[simp] theorem countAxis_backup (f : AxisCounters → AxisCounters) : (s.countAxis f).backup = s.backup := rfl
@[simp] theorem countAxis_calendar (f : AxisCounters → AxisCounters) : (s.countAxis f).calendar = s.calendar := rfl
@[simp] theorem countAxis_shows (f : AxisCounters → AxisCounters) : (s.countAxis f).shows = s.shows := rfl
@[simp] theorem countAxis_channels (f : AxisCounters → AxisCounters) : (s.countAxis f).channels = s.channels := rfl
@[simp] theorem countAxis_strikes (f : AxisCounters → AxisCounters) : (s.countAxis f).strikes = s.strikes := rfl
@[simp] theorem countAxis_hammer (f : AxisCounters → AxisCounters) : (s.countAxis f).hammer = s.hammer := rfl
@[simp] theorem countAxis_axes (f : AxisCounters → AxisCounters) :
    (s.countAxis f).axes = { s.axes with counters := f s.axes.counters } := rfl
@[simp] theorem countAxis_stage (f : AxisCounters → AxisCounters) : (s.countAxis f).stage = s.stage := rfl
@[simp] theorem countAxis_store (f : AxisCounters → AxisCounters) : (s.countAxis f).store = s.store := rfl
@[simp] theorem countAxis_ports (f : AxisCounters → AxisCounters) : (s.countAxis f).ports = s.ports := rfl
@[simp] theorem countAxis_todo (f : AxisCounters → AxisCounters) : (s.countAxis f).todo = s.todo := rfl

/-! ### `countStage` -/

@[simp] theorem countStage_pending (f : StageCounters → StageCounters) : (s.countStage f).pending = s.pending := rfl
@[simp] theorem countStage_pins (f : StageCounters → StageCounters) : (s.countStage f).pins = s.pins := rfl
@[simp] theorem countStage_time (f : StageCounters → StageCounters) : (s.countStage f).time = s.time := rfl
@[simp] theorem countStage_backup (f : StageCounters → StageCounters) : (s.countStage f).backup = s.backup := rfl
@[simp] theorem countStage_calendar (f : StageCounters → StageCounters) :
    (s.countStage f).calendar = s.calendar := rfl
@[simp] theorem countStage_shows (f : StageCounters → StageCounters) : (s.countStage f).shows = s.shows := rfl
@[simp] theorem countStage_channels (f : StageCounters → StageCounters) :
    (s.countStage f).channels = s.channels := rfl
@[simp] theorem countStage_strikes (f : StageCounters → StageCounters) : (s.countStage f).strikes = s.strikes := rfl
@[simp] theorem countStage_hammer (f : StageCounters → StageCounters) : (s.countStage f).hammer = s.hammer := rfl
@[simp] theorem countStage_axes (f : StageCounters → StageCounters) : (s.countStage f).axes = s.axes := rfl
@[simp] theorem countStage_stage (f : StageCounters → StageCounters) :
    (s.countStage f).stage = { s.stage with counters := f s.stage.counters } := rfl
@[simp] theorem countStage_store (f : StageCounters → StageCounters) : (s.countStage f).store = s.store := rfl
@[simp] theorem countStage_ports (f : StageCounters → StageCounters) : (s.countStage f).ports = s.ports := rfl
@[simp] theorem countStage_todo (f : StageCounters → StageCounters) : (s.countStage f).todo = s.todo := rfl

/-! ### `countStore` -/

@[simp] theorem countStore_pending (f : StoreCounters → StoreCounters) : (s.countStore f).pending = s.pending := rfl
@[simp] theorem countStore_pins (f : StoreCounters → StoreCounters) : (s.countStore f).pins = s.pins := rfl
@[simp] theorem countStore_time (f : StoreCounters → StoreCounters) : (s.countStore f).time = s.time := rfl
@[simp] theorem countStore_backup (f : StoreCounters → StoreCounters) : (s.countStore f).backup = s.backup := rfl
@[simp] theorem countStore_calendar (f : StoreCounters → StoreCounters) :
    (s.countStore f).calendar = s.calendar := rfl
@[simp] theorem countStore_shows (f : StoreCounters → StoreCounters) : (s.countStore f).shows = s.shows := rfl
@[simp] theorem countStore_channels (f : StoreCounters → StoreCounters) :
    (s.countStore f).channels = s.channels := rfl
@[simp] theorem countStore_strikes (f : StoreCounters → StoreCounters) : (s.countStore f).strikes = s.strikes := rfl
@[simp] theorem countStore_hammer (f : StoreCounters → StoreCounters) : (s.countStore f).hammer = s.hammer := rfl
@[simp] theorem countStore_axes (f : StoreCounters → StoreCounters) : (s.countStore f).axes = s.axes := rfl
@[simp] theorem countStore_stage (f : StoreCounters → StoreCounters) : (s.countStore f).stage = s.stage := rfl
@[simp] theorem countStore_store (f : StoreCounters → StoreCounters) :
    (s.countStore f).store = { s.store with counters := f s.store.counters } := rfl
@[simp] theorem countStore_ports (f : StoreCounters → StoreCounters) : (s.countStore f).ports = s.ports := rfl
@[simp] theorem countStore_todo (f : StoreCounters → StoreCounters) : (s.countStore f).todo = s.todo := rfl

/-! ### `oweAttempt` -/

@[simp] theorem oweAttempt_pending : s.oweAttempt.pending = s.pending := rfl
@[simp] theorem oweAttempt_pins : s.oweAttempt.pins = s.pins := rfl
@[simp] theorem oweAttempt_time : s.oweAttempt.time = s.time := rfl
@[simp] theorem oweAttempt_backup : s.oweAttempt.backup = s.backup := rfl
@[simp] theorem oweAttempt_calendar : s.oweAttempt.calendar = s.calendar := rfl
@[simp] theorem oweAttempt_shows : s.oweAttempt.shows = s.shows := rfl
@[simp] theorem oweAttempt_channels : s.oweAttempt.channels = s.channels := rfl
@[simp] theorem oweAttempt_strikes : s.oweAttempt.strikes = s.strikes := rfl
@[simp] theorem oweAttempt_hammer : s.oweAttempt.hammer = s.hammer := rfl
@[simp] theorem oweAttempt_axes : s.oweAttempt.axes = s.axes := rfl
@[simp] theorem oweAttempt_stage : s.oweAttempt.stage = s.stage := rfl
@[simp] theorem oweAttempt_store : s.oweAttempt.store = s.store := rfl
@[simp] theorem oweAttempt_ports : s.oweAttempt.ports = s.ports := rfl
@[simp] theorem oweAttempt_todo : s.oweAttempt.todo = { s.todo with attempt := true } := rfl

/-! ### `oweReeval` -/

@[simp] theorem oweReeval_pending : s.oweReeval.pending = s.pending := rfl
@[simp] theorem oweReeval_pins : s.oweReeval.pins = s.pins := rfl
@[simp] theorem oweReeval_time : s.oweReeval.time = s.time := rfl
@[simp] theorem oweReeval_backup : s.oweReeval.backup = s.backup := rfl
@[simp] theorem oweReeval_calendar : s.oweReeval.calendar = s.calendar := rfl
@[simp] theorem oweReeval_shows : s.oweReeval.shows = s.shows := rfl
@[simp] theorem oweReeval_channels : s.oweReeval.channels = s.channels := rfl
@[simp] theorem oweReeval_strikes : s.oweReeval.strikes = s.strikes := rfl
@[simp] theorem oweReeval_hammer : s.oweReeval.hammer = s.hammer := rfl
@[simp] theorem oweReeval_axes : s.oweReeval.axes = s.axes := rfl
@[simp] theorem oweReeval_stage : s.oweReeval.stage = s.stage := rfl
@[simp] theorem oweReeval_store : s.oweReeval.store = s.store := rfl
@[simp] theorem oweReeval_ports : s.oweReeval.ports = s.ports := rfl
@[simp] theorem oweReeval_todo : s.oweReeval.todo = { s.todo with reeval := true } := rfl

/-! ### `oweTest` -/

@[simp] theorem oweTest_pending (a : AxisId) : (s.oweTest a).pending = s.pending := rfl
@[simp] theorem oweTest_pins (a : AxisId) : (s.oweTest a).pins = s.pins := rfl
@[simp] theorem oweTest_time (a : AxisId) : (s.oweTest a).time = s.time := rfl
@[simp] theorem oweTest_backup (a : AxisId) : (s.oweTest a).backup = s.backup := rfl
@[simp] theorem oweTest_calendar (a : AxisId) : (s.oweTest a).calendar = s.calendar := rfl
@[simp] theorem oweTest_shows (a : AxisId) : (s.oweTest a).shows = s.shows := rfl
@[simp] theorem oweTest_channels (a : AxisId) : (s.oweTest a).channels = s.channels := rfl
@[simp] theorem oweTest_strikes (a : AxisId) : (s.oweTest a).strikes = s.strikes := rfl
@[simp] theorem oweTest_hammer (a : AxisId) : (s.oweTest a).hammer = s.hammer := rfl
@[simp] theorem oweTest_axes (a : AxisId) : (s.oweTest a).axes = s.axes := rfl
@[simp] theorem oweTest_stage (a : AxisId) : (s.oweTest a).stage = s.stage := rfl
@[simp] theorem oweTest_store (a : AxisId) : (s.oweTest a).store = s.store := rfl
@[simp] theorem oweTest_ports (a : AxisId) : (s.oweTest a).ports = s.ports := rfl
@[simp] theorem oweTest_todo (a : AxisId) : (s.oweTest a).todo = { s.todo with test := s.todo.test.set a true } := rfl

/-! ### `respond` -/

@[simp] theorem respond_pending (p : PortId) (r : ResultCode) (d : List Byte) :
    (s.respond p r d).pending = s.pending := rfl
@[simp] theorem respond_pins (p : PortId) (r : ResultCode) (d : List Byte) : (s.respond p r d).pins = s.pins := rfl
@[simp] theorem respond_time (p : PortId) (r : ResultCode) (d : List Byte) : (s.respond p r d).time = s.time := rfl
@[simp] theorem respond_backup (p : PortId) (r : ResultCode) (d : List Byte) :
    (s.respond p r d).backup = s.backup := rfl
@[simp] theorem respond_calendar (p : PortId) (r : ResultCode) (d : List Byte) :
    (s.respond p r d).calendar = s.calendar := rfl
@[simp] theorem respond_shows (p : PortId) (r : ResultCode) (d : List Byte) : (s.respond p r d).shows = s.shows := rfl
@[simp] theorem respond_channels (p : PortId) (r : ResultCode) (d : List Byte) :
    (s.respond p r d).channels = s.channels := rfl
@[simp] theorem respond_strikes (p : PortId) (r : ResultCode) (d : List Byte) :
    (s.respond p r d).strikes = s.strikes := rfl
@[simp] theorem respond_hammer (p : PortId) (r : ResultCode) (d : List Byte) :
    (s.respond p r d).hammer = s.hammer := rfl
@[simp] theorem respond_axes (p : PortId) (r : ResultCode) (d : List Byte) : (s.respond p r d).axes = s.axes := rfl
@[simp] theorem respond_stage (p : PortId) (r : ResultCode) (d : List Byte) : (s.respond p r d).stage = s.stage := rfl
@[simp] theorem respond_store (p : PortId) (r : ResultCode) (d : List Byte) : (s.respond p r d).store = s.store := rfl
@[simp] theorem respond_ports (p : PortId) (r : ResultCode) (d : List Byte) :
    (s.respond p r d).ports = s.ports.set p.idx { s.ports[p.idx] with response := { status := .done, result := r, data := d }, state := .idle } := rfl
@[simp] theorem respond_todo (p : PortId) (r : ResultCode) (d : List Byte) : (s.respond p r d).todo = s.todo := rfl

/-! ### `report` -/

@[simp] theorem report_pending (k : EventKind) (x : Option Subject) (d e : Option Int) :
    (s.report k x d e).pending = s.pending := rfl
@[simp] theorem report_pins (k : EventKind) (x : Option Subject) (d e : Option Int) :
    (s.report k x d e).pins = s.pins := rfl
@[simp] theorem report_time (k : EventKind) (x : Option Subject) (d e : Option Int) :
    (s.report k x d e).time = s.time := rfl
@[simp] theorem report_backup (k : EventKind) (x : Option Subject) (d e : Option Int) :
    (s.report k x d e).backup = s.backup := rfl
@[simp] theorem report_calendar (k : EventKind) (x : Option Subject) (d e : Option Int) :
    (s.report k x d e).calendar = s.calendar := rfl
@[simp] theorem report_shows (k : EventKind) (x : Option Subject) (d e : Option Int) :
    (s.report k x d e).shows = s.shows := rfl
@[simp] theorem report_channels (k : EventKind) (x : Option Subject) (d e : Option Int) :
    (s.report k x d e).channels = s.channels := rfl
@[simp] theorem report_strikes (k : EventKind) (x : Option Subject) (d e : Option Int) :
    (s.report k x d e).strikes = s.strikes := rfl
@[simp] theorem report_hammer (k : EventKind) (x : Option Subject) (d e : Option Int) :
    (s.report k x d e).hammer = s.hammer := rfl
@[simp] theorem report_axes (k : EventKind) (x : Option Subject) (d e : Option Int) :
    (s.report k x d e).axes = s.axes := rfl
@[simp] theorem report_stage (k : EventKind) (x : Option Subject) (d e : Option Int) :
    (s.report k x d e).stage = s.stage := rfl
@[simp] theorem report_store (k : EventKind) (x : Option Subject) (d e : Option Int) :
    (s.report k x d e).store = s.store := rfl
@[simp] theorem report_todo (k : EventKind) (x : Option Subject) (d e : Option Int) :
    (s.report k x d e).todo = s.todo := rfl

end Sys2Proof.Machine.State
end

