-- ==== Sys2Proof/Laws/Serve.lean ====
section
/-! SUPPORT. How a command is taken: nothing owed means no follow-up runs, a request that passes its checks runs its own
rule, and an event whose condition holds has its effect. -/

namespace Sys2Proof.Machine

variable {s : State} {p : PortId}

/-! ### Follow-ups and owed tests -/

theorem settle_eq_self (h : nextFollow s = none) : settle s = s := by
  simp only [settle, Config.settleFuel, settleFor, h]

theorem pumpMoves_eq_self (n : Nat) (h : s.todo = Todo.none) : pumpMoves n s = s := by
  cases n with
  | zero => rfl
  | succ n =>
    have hf : allAxes.find? (fun a => s.todo.test[a]) = none := by rw [h]; decide
    have hr : s.todo.reeval = false := by rw [h]; rfl
    simp only [pumpMoves, hr, hf]; rfl

theorem close_eq_self (h : s.todo = Todo.none) : s.close = s := pumpMoves_eq_self _ h

theorem event_fires {c : State → Bool} {f : State → State} (h : nextFollow s = none) (hc : c s = true) :
    event s c f = .next (f s).close := by
  simp only [event, settle_eq_self h, hc, if_true]

theorem event_rests {c : State → Bool} {f : State → State} (h : nextFollow s = none) (hc : c s = false) :
    event s c f = .next s := by
  simp [event, settle_eq_self h, hc]

/-- An event whose effect owes no test. -/
theorem event_fires_calm {c : State → Bool} {f : State → State} (h : nextFollow s = none) (hc : c s = true)
    (ht : (f s).todo = Todo.none) : event s c f = .next (f s) := by
  rw [event_fires h hc, close_eq_self ht]

/-! ### Ports -/

theorem port_modPort (f : Port → Port) : (s.modPort p f).port p = f (s.port p) := by
  simp [State.port, State.modPort]

theorem PortId.idx_ne {p q : PortId} (h : p ≠ q) : p.idx ≠ q.idx := by
  cases p <;> cases q <;> simp_all [PortId.idx]

theorem port_modPort_ne {q : PortId} (h : q ≠ p) (f : Port → Port) : (s.modPort p f).port q = s.port q := by
  have hi : (p.idx : Nat) ≠ q.idx := fun e => PortId.idx_ne h (Fin.ext e.symm)
  simp [State.port, State.modPort, Vector.getElem_set_ne, hi]

theorem modPort_modPort (f g : Port → Port) : (s.modPort p f).modPort p g = s.modPort p fun c => g (f c) := by
  simp [State.modPort]

theorem modPort_comm {q : PortId} (h : p ≠ q) (f g : Port → Port) :
    (s.modPort p f).modPort q g = (s.modPort q g).modPort p f := by
  have hi : (p.idx : Nat) ≠ q.idx := fun e => PortId.idx_ne h (Fin.ext e)
  simp only [State.modPort, Fin.getElem_fin, Vector.getElem_set_ne _ _ hi, Vector.getElem_set_ne _ _ hi.symm]
  rw [Vector.set_comm _ _ hi]

/-- A change of one port that leaves what `offer` reads commutes with an offer. -/
theorem respond_takeRequest (f : List Byte) (r : ResultCode) (d : List Byte) :
    (s.takeRequest p f).respond p r d = s.modPort p fun c => c.answered f r d := by
  simp [State.takeRequest, State.respond, modPort_modPort, Port.answered]

/-- A request that is taken and answered, and changes nothing else. -/
theorem answer_eq (i : Instr) (r : ResultCode) (d : List Byte) :
    (s.takeRequest p ((frameOf? i).getD [])).respond p r d = s.answer p i r d := respond_takeRequest ..

@[simp] theorem takeRequest_todo (f : List Byte) : (s.takeRequest p f).todo = s.todo := rfl
@[simp] theorem takeRequest_store (f : List Byte) : (s.takeRequest p f).store = s.store := rfl

/-! ### Requests -/

/-- A request that the port takes while no follow-up is owed. -/
theorem request_taken {i : Instr} {l : Bool} {a : PortId → Bool} {b : State → State} (ht : Takes s p) :
    s.request p i l a b = ((s.takeRequest p ((frameOf? i).getD [])).judge p l a b).close := by
  simp [State.request, ht.1, ht.2]

/-- A request that passes the checks common to all requests runs its own rule. -/
theorem serve_accepted {i : Instr} {a : PortId → Bool} {b : State → State} (h : Accepts s p) (ha : a p = true) :
    serve s p i a b = .next (b (s.takeRequest p ((frameOf? i).getD []))).close := by
  simp [serve, settle_eq_self h.1.1, request_taken h.2.1, State.judge, ha, h.2.2]

/-- A request that is answered by a change that owes no test. -/
theorem serve_accepted_calm {i : Instr} {a : PortId → Bool} {b : State → State} (h : Accepts s p) (ha : a p = true)
    (ht : (b (s.takeRequest p ((frameOf? i).getD []))).todo = Todo.none) :
    serve s p i a b = .next (b (s.takeRequest p ((frameOf? i).getD []))) := by
  rw [serve_accepted h ha, close_eq_self ht]

/-! ### Reports -/

theorem report_eq (k : EventKind) (x : Option Subject) (d e : Option Int) :
    s.report k x d e = ((s.modPort .venue (·.offer (s.record k x d e))).modPort .programme
      (·.offer (s.record k x d e))).modPort .service (·.offer (s.record k x d e)) := rfl

/-- What a report does at each port (R190). -/
theorem port_report (q : PortId) (k : EventKind) (x : Option Subject) (d e : Option Int) :
    (s.report k x d e).port q = (s.port q).offer (s.record k x d e) := by
  rw [report_eq]
  cases q with
  | venue => rw [port_modPort_ne (by decide), port_modPort_ne (by decide), port_modPort]
  | programme => rw [port_modPort_ne (by decide), port_modPort, port_modPort_ne (by decide)]
  | service => rw [port_modPort, port_modPort_ne (by decide), port_modPort_ne (by decide)]

end Sys2Proof.Machine
end

