-- ==== Sys2Proof/Laws/Frame.lean ====
section
/-! SUPPORT. What an operation may change: ports that are only offered events, and the frame of the axis controller's
operations (chapter 7). -/

namespace Sys2Proof.Machine

/-! ### Ports that are offered events -/

/-- `d` is `c` after some events were offered to it (R190, R191). -/
structure Port.Offered (c d : Port) : Prop where
  rest : d = { c with queue := d.queue, lost := d.lost, counters := { c.counters with discarded := d.counters.discarded } }
  room : c.queue.length ≤ 16 → d.queue.length ≤ 16

theorem Port.Offered.refl (c : Port) : Port.Offered c c := ⟨rfl, id⟩

theorem Port.Offered.trans {c d e : Port} (h : Port.Offered c d) (k : Port.Offered d e) : Port.Offered c e := by
  refine ⟨?_, k.room ∘ h.room⟩
  rw [k.rest, h.rest]

theorem Port.offered_offer (c : Port) (r : EventRecord) : Port.Offered c (c.offer r) := by
  unfold Port.offer Port.append
  split
  · split
    · rename_i h
      refine ⟨rfl, fun _ => ?_⟩
      simp [Config.eventCapacity] at h ⊢
      omega
    · exact ⟨rfl, id⟩
  · exact Port.Offered.refl c

/-- Every port was only offered events. -/
def Told (s t : State) : Prop := ∀ q, Port.Offered (s.port q) (t.port q)

theorem Told.refl (s : State) : Told s s := fun _ => Port.Offered.refl _
theorem Told.trans {s t u : State} (h : Told s t) (k : Told t u) : Told s u := fun q => (h q).trans (k q)
theorem Told.of_ports_eq {s t : State} (h : t.ports = s.ports) : Told s t := fun q => by
  simp only [State.port, h]; exact Port.Offered.refl _
theorem told_report (s : State) (k : EventKind) (x : Option Subject) (d e : Option Int) : Told s (s.report k x d e) :=
  fun q => by rw [port_report]; exact Port.offered_offer _ _

/-! ### Tables -/

variable {s t u : State}

theorem axis_modAxis (a : AxisId) (f : Axis → Axis) : (s.modAxis a f).axis a = f (s.axis a) := by
  simp [State.axis]

theorem axis_modAxis_ne {a b : AxisId} (h : a ≠ b) (f : Axis → Axis) : (s.modAxis a f).axis b = s.axis b := by
  have hi : (a : Nat) ≠ b := fun e => h (Fin.ext e)
  simp [State.axis, Vector.getElem_set_ne, hi]

theorem player_modPlayer (p : PlayerId) (f : Player → Player) : (s.modPlayer p f).player p = f (s.player p) := by
  simp [State.player]

theorem player_modPlayer_ne {p q : PlayerId} (h : p ≠ q) (f : Player → Player) :
    (s.modPlayer p f).player q = s.player q := by
  have hi : (p : Nat) ≠ q := fun e => h (Fin.ext e)
  simp [State.player, Vector.getElem_set_ne, hi]

theorem channel_modChannel (p : PlayerId) (f : Channel → Channel) : (s.modChannel p f).channel p = f (s.channel p) := by
  simp [State.channel]

theorem channel_modChannel_ne {p q : PlayerId} (h : p ≠ q) (f : Channel → Channel) :
    (s.modChannel p f).channel q = s.channel q := by
  have hi : (p : Nat) ≠ q := fun e => h (Fin.ext e)
  simp [State.channel, Vector.getElem_set_ne, hi]

/-! ### The frame of the axis controller's operations -/

/-- What the operations of the axis controller may change: the runtime records of the axes and their counters, the owed
tests, the event queues, stage control's start-up list and counters, and of the players only whether their awaited move
has ended (R143). -/
structure AxisSide (s t : State) : Prop where
  rest : t = { s with axes := t.axes, ports := t.ports, todo := t.todo, shows := t.shows, stage := t.stage }
  shows : t.shows = { s.shows with players := t.shows.players }
  player : ∀ p, t.player p = { s.player p with awaitOver := (t.player p).awaitOver }
  stage : t.stage = { s.stage with startup := t.stage.startup, counters := t.stage.counters }
  axes : t.axes = { s.axes with axes := t.axes.axes, counters := t.axes.counters }
  axis : ∀ a, (t.axis a).config = (s.axis a).config ∧ (t.axis a).claim = (s.axis a).claim
  told : Told s t

theorem AxisSide.refl (s : State) : AxisSide s s := ⟨rfl, rfl, fun _ => rfl, rfl, rfl, fun _ => ⟨rfl, rfl⟩, Told.refl s⟩

theorem AxisSide.trans (h : AxisSide s t) (k : AxisSide t u) : AxisSide s u where
  rest := by rw [k.rest, h.rest]
  shows := by rw [k.shows, h.shows]
  player p := by rw [k.player p, h.player p]
  stage := by rw [k.stage, h.stage]
  axes := by rw [k.axes, h.axes]
  axis a := ⟨((k.axis a).1).trans (h.axis a).1, ((k.axis a).2).trans (h.axis a).2⟩
  told := h.told.trans k.told

/-! ### One operation more -/

namespace AxisSide

theorem report {k : EventKind} {x : Option Subject} {d e : Option Int} (h : AxisSide s t) :
    AxisSide s (t.report k x d e) :=
  h.trans ⟨rfl, rfl, fun _ => rfl, rfl, rfl, fun _ => ⟨rfl, rfl⟩, told_report t k x d e⟩

theorem modTodo {f : Todo → Todo} (h : AxisSide s t) : AxisSide s (t.modTodo f) :=
  h.trans ⟨rfl, rfl, fun _ => rfl, rfl, rfl, fun _ => ⟨rfl, rfl⟩, Told.of_ports_eq rfl⟩

theorem countAxis {f : AxisCounters → AxisCounters} (h : AxisSide s t) : AxisSide s (t.countAxis f) :=
  h.trans ⟨rfl, rfl, fun _ => rfl, rfl, rfl, fun _ => ⟨rfl, rfl⟩, Told.of_ports_eq rfl⟩

theorem countStage {f : StageCounters → StageCounters} (h : AxisSide s t) : AxisSide s (t.countStage f) :=
  h.trans ⟨rfl, rfl, fun _ => rfl, rfl, rfl, fun _ => ⟨rfl, rfl⟩, Told.of_ports_eq rfl⟩

theorem startup {f : List AxisId → List AxisId} (h : AxisSide s t) :
    AxisSide s (t.modStage fun g => { g with startup := f g.startup }) :=
  h.trans ⟨rfl, rfl, fun _ => rfl, rfl, rfl, fun _ => ⟨rfl, rfl⟩, Told.of_ports_eq rfl⟩

theorem modAxis_self (t : State) (a : AxisId) (f : Axis → Axis) (hf : ∀ x, (f x).config = x.config ∧ (f x).claim = x.claim) :
    AxisSide t (t.modAxis a f) where
  rest := rfl
  shows := rfl
  player _ := rfl
  stage := rfl
  axes := rfl
  axis b := by
    by_cases h : a = b
    · subst h; rw [axis_modAxis]; exact hf _
    · rw [axis_modAxis_ne h]; exact ⟨rfl, rfl⟩
  told := Told.of_ports_eq rfl

theorem modAxis {a : AxisId} {f : Axis → Axis} (h : AxisSide s t)
    (hf : ∀ x, (f x).config = x.config ∧ (f x).claim = x.claim) : AxisSide s (t.modAxis a f) :=
  h.trans (modAxis_self t a f hf)

theorem ended_self (s : State) (p : PlayerId) : AxisSide s (s.modPlayer p fun x => { x with awaitOver := true }) where
  rest := rfl
  shows := rfl
  player q := by
    by_cases h : p = q
    · subst h; rw [player_modPlayer]
    · rw [player_modPlayer_ne h]
  stage := rfl
  axes := rfl
  axis _ := ⟨rfl, rfl⟩
  told := Told.of_ports_eq rfl

theorem foldl {α : Type} {f : State → α → State} {xs : List α} (hf : ∀ s x, AxisSide s (f s x)) (h : AxisSide s t) :
    AxisSide s (xs.foldl f t) := by
  induction xs generalizing t with
  | nil => exact h
  | cons x xs ih => exact ih (h.trans (hf t x))

theorem awaitedEnded {p : PlayerId} {a : AxisId} (h : AxisSide s t) : AxisSide s (t.awaitedEnded p a) := by
  unfold State.awaitedEnded
  split
  · exact h.trans (ended_self t p)
  · exact h

theorem motionEnded {a : AxisId} (h : AxisSide s t) : AxisSide s (t.motionEnded a) := by
  refine foldl (fun s p => ?_) h
  split
  · exact .refl s
  · exact awaitedEnded (.refl s)

theorem oweReeval (h : AxisSide s t) : AxisSide s t.oweReeval := modTodo h
theorem oweTest {a : AxisId} (h : AxisSide s t) : AxisSide s (t.oweTest a) := modTodo h
theorem oweAttempt (h : AxisSide s t) : AxisSide s t.oweAttempt := modTodo h

theorem oweIfFree {a : AxisId} (h : AxisSide s t) : AxisSide s (t.oweIfFree a) := by
  unfold State.oweIfFree
  dsimp only
  split
  · exact oweAttempt h
  · exact h

theorem moveDropped {a : AxisId} {o : MoveOwner} (h : AxisSide s t) : AxisSide s (t.moveDropped a o) := by
  unfold State.moveDropped
  cases o with
  | player p => exact oweReeval (oweIfFree (awaitedEnded h))
  | service => exact oweReeval (oweIfFree h)

theorem discardMove {a : AxisId} {r : DiscardReason} (h : AxisSide s t) : AxisSide s (t.discardMove a r) := by
  unfold State.discardMove
  split
  · exact h
  · exact moveDropped (countAxis (report (modAxis h fun _ => ⟨rfl, rfl⟩)))

theorem abandonMove {a : AxisId} {m : PendingMove} (h : AxisSide s t) : AxisSide s (t.abandonMove a m) := by
  unfold State.abandonMove
  exact moveDropped (countStage (report (modAxis h fun _ => ⟨rfl, rfl⟩)))

theorem arrive {a : AxisId} (h : AxisSide s t) : AxisSide s (t.arrive a) := by
  unfold State.arrive
  exact oweIfFree (oweTest (oweReeval (motionEnded (countAxis (report (modAxis h fun _ => ⟨rfl, rfl⟩))))))

theorem startMove {a : AxisId} {m : PendingMove} (h : AxisSide s t) : AxisSide s (t.startMove a m) := by
  unfold State.startMove
  dsimp only
  split
  · exact arrive (countAxis (modAxis h fun _ => ⟨rfl, rfl⟩))
  · exact countAxis (modAxis h fun _ => ⟨rfl, rfl⟩)

theorem holdMove {a : AxisId} {m : PendingMove} {e : InterlockId} (h : AxisSide s t) : AxisSide s (t.holdMove a m e) := by
  unfold State.holdMove
  split
  · exact h
  · exact countStage (report (modAxis h fun _ => ⟨rfl, rfl⟩))

theorem testMove {a : AxisId} (h : AxisSide s t) : AxisSide s (t.testMove a) := by
  unfold State.testMove
  split
  · exact h
  · split
    · split
      · exact startMove h
      · exact holdMove h
    · exact h

theorem retestHeld {a : AxisId} (h : AxisSide s t) : AxisSide s (t.retestHeld a) := by
  unfold State.retestHeld
  split
  · split
    · exact testMove h
    · exact h
  · exact h

theorem pumpMoves (n : Nat) (h : AxisSide s t) : AxisSide s (Machine.pumpMoves n t) := by
  induction n generalizing t with
  | zero => exact h
  | succ n ih =>
    unfold Machine.pumpMoves
    split
    · exact ih (foldl (fun s a => retestHeld (.refl s)) (modTodo h))
    · split
      · exact ih (testMove (modTodo h))
      · exact h

theorem close (h : AxisSide s t) : AxisSide s t.close := pumpMoves _ h

theorem placeMove {a : AxisId} {x : Int} {r : ProfileId} {d : Nat} {o : MoveOwner} (h : AxisSide s t) :
    AxisSide s (t.placeMove a x r d o) := by
  unfold State.placeMove
  exact testMove (modAxis h fun _ => ⟨rfl, rfl⟩)

theorem completeStop {a : AxisId} (h : AxisSide s t) : AxisSide s (t.completeStop a) := by
  unfold State.completeStop
  dsimp only
  refine oweIfFree (oweTest (oweReeval (motionEnded ?_)))
  split
  · exact countAxis (report (modAxis h fun _ => ⟨rfl, rfl⟩))
  · exact discardMove (countAxis (report (modAxis h fun _ => ⟨rfl, rfl⟩)))

theorem limitFault {a : AxisId} (h : AxisSide s t) : AxisSide s (t.limitFault a) := by
  unfold State.limitFault
  exact oweReeval (discardMove (countAxis (report (modAxis h fun _ => ⟨rfl, rfl⟩))))

theorem stopMotion {a : AxisId} {k : StopKind} {c : StopCause} (h : AxisSide s t) : AxisSide s (t.stopMotion a k c) := by
  unfold State.stopMotion
  dsimp only
  split
  · split
    · exact completeStop (modAxis h fun _ => ⟨rfl, rfl⟩)
    · exact modAxis h fun _ => ⟨rfl, rfl⟩
  · split
    · split
      · exact h
      · exact modAxis h fun _ => ⟨rfl, rfl⟩
    · exact h
  · exact h

theorem beginHoming {a : AxisId} {o : HomingOrigin} (h : AxisSide s t) : AxisSide s (t.beginHoming a o) := by
  unfold State.beginHoming
  exact startup (f := fun l => l.filter (· != a)) (modAxis h fun _ => ⟨rfl, rfl⟩)

theorem requestHoming {a : AxisId} (h : AxisSide s t) : AxisSide s (t.requestHoming a) := by
  unfold State.requestHoming
  dsimp only
  split
  · exact beginHoming h
  · exact h

theorem completeHoming {a : AxisId} {n : Nat} (h : AxisSide s t) : AxisSide s (t.completeHoming a n) := by
  unfold State.completeHoming
  refine foldl (fun s a => requestHoming (.refl s)) ?_
  exact oweAttempt (oweTest (oweReeval (motionEnded (countAxis (report (modAxis h fun _ => ⟨rfl, rfl⟩))))))

theorem endHoming {a : AxisId} {c : StopCause} (h : AxisSide s t) : AxisSide s (t.endHoming a c) := by
  unfold State.endHoming
  exact oweIfFree (oweReeval (countAxis (report (modAxis h fun _ => ⟨rfl, rfl⟩))))

theorem failHoming {a : AxisId} {n : Nat} (h : AxisSide s t) : AxisSide s (t.failHoming a n) := by
  unfold State.failHoming
  exact oweReeval (countAxis (report (modAxis h fun _ => ⟨rfl, rfl⟩)))

theorem slip {a : AxisId} (h : AxisSide s t) : AxisSide s (t.slip a) := by
  unfold State.slip
  dsimp only
  split
  · exact oweIfFree (oweReeval (motionEnded (countAxis (report (modAxis
      (discardMove (countAxis (report (modAxis h fun _ => ⟨rfl, rfl⟩)))) fun _ => ⟨rfl, rfl⟩)))))
  · exact oweReeval (stopMotion (discardMove (countAxis (report (modAxis h fun _ => ⟨rfl, rfl⟩)))))

theorem finishBurst {a : AxisId} (h : AxisSide s t) : AxisSide s (t.finishBurst a) := by
  unfold State.finishBurst
  dsimp only
  split
  · exact h
  · split
    · split
      · exact modAxis h fun _ => ⟨rfl, rfl⟩
      · exact arrive (modAxis h fun _ => ⟨rfl, rfl⟩)
      · exact completeStop (modAxis h fun _ => ⟨rfl, rfl⟩)
      · exact limitFault (modAxis h fun _ => ⟨rfl, rfl⟩)
    · exact h

end AxisSide

/-! ### The motion tick and the home switch -/

theorem pulseStep_config (x : Axis) : x.pulseStep.config = x.config ∧ x.pulseStep.claim = x.claim := by
  unfold Axis.pulseStep
  dsimp only
  split
  · exact ⟨rfl, rfl⟩
  · split <;> exact ⟨rfl, rfl⟩

theorem decelerate_config (x : Axis) (r : Nat) :
    (x.decelerate r).config = x.config ∧ (x.decelerate r).claim = x.claim := ⟨rfl, rfl⟩

theorem changeSpeed_config (x : Axis) : x.changeSpeed.config = x.config ∧ x.changeSpeed.claim = x.claim := by
  unfold Axis.changeSpeed
  split
  · exact ⟨rfl, rfl⟩
  · split <;> exact ⟨rfl, rfl⟩

theorem floorSpeed_config (x : Axis) (n : Nat) :
    (x.floorSpeed n).config = x.config ∧ (x.floorSpeed n).claim = x.claim := by
  unfold Axis.floorSpeed
  split <;> exact ⟨rfl, rfl⟩

theorem speedTick_config (x : Axis) : x.speedTick.config = x.config ∧ x.speedTick.claim = x.claim :=
  ⟨((floorSpeed_config _ _).1).trans (changeSpeed_config x).1, ((floorSpeed_config _ _).2).trans (changeSpeed_config x).2⟩

theorem motionArith_config (x : Axis) : x.motionArith.config = x.config ∧ x.motionArith.claim = x.claim := by
  unfold Axis.motionArith
  split
  · dsimp only [Axis.takeSteps]
    split <;> exact speedTick_config x
  · exact ⟨rfl, rfl⟩
  · exact ⟨rfl, rfl⟩
  · exact ⟨rfl, rfl⟩

namespace AxisSide

theorem stepAxis {a : AxisId} (h : AxisSide s t) : AxisSide s (t.stepAxis a) := by
  unfold State.stepAxis
  split
  · split
    · exact finishBurst (modAxis h pulseStep_config)
    · exact finishBurst h
  · exact h

theorem motionAxis {a : AxisId} (h : AxisSide s t) : AxisSide s (t.motionAxis a) := by
  unfold State.motionAxis
  split
  · exact stepAxis (modAxis h motionArith_config)
  · exact h

theorem axisHammerTick {a : AxisId} (h : AxisSide s t) : AxisSide s (t.axisHammerTick a) := by
  unfold State.axisHammerTick
  dsimp only
  refine stepAxis ?_
  split
  · exact slip (modAxis h fun _ => ⟨rfl, rfl⟩)
  · exact modAxis h fun _ => ⟨rfl, rfl⟩

theorem homedEdge {a : AxisId} (h : AxisSide s t) : AxisSide s (t.homedEdge a) := by
  unfold State.homedEdge
  dsimp only
  split
  · exact h
  · split
    · refine finishBurst (modAxis h fun x => ?_)
      split <;> exact ⟨rfl, rfl⟩
    · exact slip h

theorem haltAxes (h : AxisSide s t) : AxisSide s t.haltAxes := by
  unfold State.haltAxes
  dsimp only
  refine foldl (fun s _ => ?_) (foldl (fun s _ => stopMotion (.refl s)) (foldl (fun s _ => discardMove (.refl s)) h))
  split
  · exact endHoming (.refl s)
  · exact .refl s

theorem dropServiceMove {a : AxisId} (h : AxisSide s t) : AxisSide s (t.dropServiceMove a) := by
  unfold State.dropServiceMove
  split
  · split
    · exact discardMove h
    · exact h
  · exact h

theorem stopServiceMove {a : AxisId} (h : AxisSide s t) : AxisSide s (t.stopServiceMove a) := by
  unfold State.stopServiceMove
  split
  · exact stopMotion h
  · exact h

theorem endServiceHoming {a : AxisId} (h : AxisSide s t) : AxisSide s (t.endServiceHoming a) := by
  unfold State.endServiceHoming
  split
  · exact endHoming h
  · exact h

theorem endServiceMotion (h : AxisSide s t) : AxisSide s t.endServiceMotion :=
  foldl (fun s _ => endServiceHoming (.refl s)) (foldl (fun s _ => stopServiceMove (.refl s))
    (foldl (fun s _ => dropServiceMove (.refl s)) h))

end AxisSide

end Sys2Proof.Machine
end

