-- ==== Sys2Proof/Laws/ShowFrame.lean ====
section
/-! SUPPORT. The frame of the show engine, the fetch channels, the strike scheduler and the follow-ups of an event, with
the laws they keep: the FIFO (R69), strike conservation (R103) and the capacities of the queues. -/

namespace Sys2Proof.Machine

variable {s t u : State}

/-- What the show side of the part may change, and what it keeps. -/
structure ShowSide (s t : State) : Prop where
  rest : t = { s with shows := t.shows, channels := t.channels, strikes := t.strikes, hammer := t.hammer, axes := t.axes,
                      stage := t.stage, store := t.store, ports := t.ports, todo := t.todo }
  hammer : t.hammer = { s.hammer with hammers := t.hammer.hammers, slots := t.hammer.slots }
  stage : t.stage = { s.stage with startup := t.stage.startup, counters := t.stage.counters }
  axes : t.axes = { s.axes with axes := t.axes.axes, counters := t.axes.counters }
  config : ∀ a, (t.axis a).config = (s.axis a).config
  store : t.store = { s.store with map := t.store.map, array := t.store.array, path := t.store.path,
                                   portReads := t.store.portReads, ownRead := t.store.ownRead, dir := t.store.dir,
                                   counters := t.store.counters }
  told : Told s t
  fifo : FifoLaw s → FifoLaw t
  conserved : StrikesConserved s → StrikesConserved t
  starts : s.shows.queue.length ≤ 8 → t.shows.queue.length ≤ 8
  strikes : s.strikes.queue.length ≤ 32 → t.strikes.queue.length ≤ 32

theorem AxisSide.toShow (h : AxisSide s t) : ShowSide s t where
  rest := by rw [h.rest]
  hammer := by rw [h.rest]
  stage := h.stage
  axes := h.axes
  config a := (h.axis a).1
  store := by rw [h.rest]
  told := h.told
  fifo := by rw [h.rest]; exact id
  conserved := by rw [h.rest]; exact id
  starts := by rw [h.shows]; exact id
  strikes := by rw [h.rest]; exact id

namespace ShowSide

theorem refl (s : State) : ShowSide s s := (AxisSide.refl s).toShow

theorem trans (h : ShowSide s t) (k : ShowSide t u) : ShowSide s u where
  rest := by rw [k.rest, h.rest]
  hammer := by rw [k.hammer, h.hammer]
  stage := by rw [k.stage, h.stage]
  axes := by rw [k.axes, h.axes]
  config a := (k.config a).trans (h.config a)
  store := by rw [k.store, h.store]
  told := h.told.trans k.told
  fifo := k.fifo ∘ h.fifo
  conserved := k.conserved ∘ h.conserved
  starts := k.starts ∘ h.starts
  strikes := k.strikes ∘ h.strikes

theorem axisSide (h : ShowSide s t) (k : AxisSide t u) : ShowSide s u := h.trans k.toShow

theorem foldl {α : Type} {f : State → α → State} {xs : List α} (hf : ∀ s x, ShowSide s (f s x)) (h : ShowSide s t) :
    ShowSide s (xs.foldl f t) := by
  induction xs generalizing t with
  | nil => exact h
  | cons x xs ih => exact ih (h.trans (hf t x))

/-! ### Plain updates -/

theorem report {k : EventKind} {x : Option Subject} {d e : Option Int} (h : ShowSide s t) :
    ShowSide s (t.report k x d e) := h.axisSide (.report (.refl t))

theorem modTodo {f : Todo → Todo} (h : ShowSide s t) : ShowSide s (t.modTodo f) := h.axisSide (.modTodo (.refl t))

theorem oweAttempt (h : ShowSide s t) : ShowSide s t.oweAttempt := h.axisSide (.oweAttempt (.refl t))

theorem close (h : ShowSide s t) : ShowSide s t.close := h.axisSide (.close (.refl t))

theorem modShows {f : Shows → Shows} (hf : t.shows.queue.length ≤ 8 → (f t.shows).queue.length ≤ 8) (h : ShowSide s t) :
    ShowSide s (t.modShows f) :=
  h.trans ⟨rfl, rfl, rfl, rfl, fun _ => rfl, rfl, Told.of_ports_eq rfl, id, id, hf, id⟩

theorem countShow {f : ShowCounters → ShowCounters} (h : ShowSide s t) : ShowSide s (t.countShow f) := modShows id h

theorem modPlayer {p : PlayerId} {f : Player → Player} (h : ShowSide s t) : ShowSide s (t.modPlayer p f) :=
  modShows id h

theorem modStore {f : Store → Store}
    (hf : ∀ x, f x = { x with map := (f x).map, array := (f x).array, path := (f x).path, portReads := (f x).portReads,
                              ownRead := (f x).ownRead, dir := (f x).dir, counters := (f x).counters })
    (h : ShowSide s t) : ShowSide s (t.modStore f) :=
  h.trans ⟨rfl, rfl, rfl, rfl, fun _ => rfl, hf _, Told.of_ports_eq rfl, id, id, id, id⟩

theorem countStore {f : StoreCounters → StoreCounters} (h : ShowSide s t) : ShowSide s (t.countStore f) :=
  modStore (fun _ => rfl) h

theorem modDir {g : ProgId} {f : DirEntry → DirEntry} (h : ShowSide s t) : ShowSide s (t.modDir g f) :=
  modStore (fun _ => rfl) h

theorem setPage {p : Nat} {x : PageState} (h : ShowSide s t) : ShowSide s (t.setPage p x) := by
  unfold State.setPage
  split
  · exact modStore (fun _ => rfl) h
  · exact h

theorem setPages {ps : List Nat} {x : PageState} (h : ShowSide s t) : ShowSide s (t.setPages ps x) := by
  unfold State.setPages
  exact foldl (fun s p => setPage (.refl s)) h

theorem modAxis {a : AxisId} {f : Axis → Axis} (hf : ∀ x, (f x).config = x.config) (h : ShowSide s t) :
    ShowSide s (t.modAxis a f) := by
  refine h.trans ⟨rfl, rfl, rfl, rfl, fun b => ?_, rfl, Told.of_ports_eq rfl, id, id, id, id⟩
  by_cases e : a = b
  · subst e; rw [axis_modAxis]; exact hf _
  · rw [axis_modAxis_ne e]

theorem modHammer {b : BellId} {f : Hammer → Hammer} (h : ShowSide s t) : ShowSide s (t.modHammer b f) :=
  h.trans ⟨rfl, rfl, rfl, rfl, fun _ => rfl, rfl, Told.of_ports_eq rfl, id, id, id, id⟩

theorem setSlot {k : Nat} {b : Option BellId} (h : ShowSide s t) : ShowSide s (t.setSlot k b) :=
  h.trans ⟨rfl, rfl, rfl, rfl, fun _ => rfl, rfl, Told.of_ports_eq rfl, id, id, id, id⟩

theorem modBell {b : BellId} {f : Bell → Bell} (h : ShowSide s t) : ShowSide s (t.modBell b f) :=
  h.trans ⟨rfl, rfl, rfl, rfl, fun _ => rfl, rfl, Told.of_ports_eq rfl, id, id, id, id⟩

theorem setRoll {r : RollId} {x : Option Roll} (h : ShowSide s t) : ShowSide s (t.setRoll r x) :=
  h.trans ⟨rfl, rfl, rfl, rfl, fun _ => rfl, rfl, Told.of_ports_eq rfl, id, id, id, id⟩

theorem modChannel {p : PlayerId} {f : Channel → Channel}
    (hf : (t.channel p).lawful → (f (t.channel p)).lawful) (h : ShowSide s t) : ShowSide s (t.modChannel p f) := by
  refine h.trans ⟨rfl, rfl, rfl, rfl, fun _ => rfl, rfl, Told.of_ports_eq rfl, fun hl q => ?_, id, id, id⟩
  by_cases e : p = q
  · subst e; rw [channel_modChannel]; exact hf (hl p)
  · rw [channel_modChannel_ne e]; exact hl q

/-! ### The strike queue -/

/-- A change of the strike queue and its counters. -/
theorem modStrikes {f : Strikes → Strikes}
    (hc : StrikesConserved t → StrikesConserved (t.modStrikes f))
    (hl : t.strikes.queue.length ≤ 32 → (f t.strikes).queue.length ≤ 32) (h : ShowSide s t) :
    ShowSide s (t.modStrikes f) :=
  h.trans ⟨rfl, rfl, rfl, rfl, fun _ => rfl, rfl, Told.of_ports_eq rfl, id, hc, id, hl⟩

end ShowSide

theorem countStrike_modStrikes (f : Strikes → Strikes) (g : StrikeCounters → StrikeCounters) :
    (s.modStrikes f).countStrike g = s.modStrikes fun k => { f k with counters := g (f k).counters } := rfl

theorem countStrike_eq (g : StrikeCounters → StrikeCounters) :
    s.countStrike g = s.modStrikes fun k => { k with counters := g k.counters } := rfl

theorem sat48_of_lt {n : Nat} (h : n < Config.maxStage) : sat48 n = n + 1 := by simp [sat48, h]

/-- An entry that is removed, and counted by one of launched, muted or late. -/
theorem ShowSide.removed {e : StrikeEntry} (he : e ∈ t.strikes.queue) {g : StrikeCounters → StrikeCounters}
    (hg : ∀ c, (g c).enqueued = c.enqueued)
    (hs : ∀ c, c.launched < Config.maxStage → c.muted < Config.maxStage → c.late < Config.maxStage →
      (g c).launched + (g c).muted + (g c).late + (g c).flushed = c.launched + c.muted + c.late + c.flushed + 1)
    (h : ShowSide s t) :
    ShowSide s ((t.modStrikes fun k => { k with queue := k.queue.erase e }).countStrike g) := by
  rw [countStrike_modStrikes]
  have hp : 0 < t.strikes.queue.length := List.length_pos_of_mem he
  refine ShowSide.modStrikes (fun hc hlt => ?_) (fun hl => ?_) h
  · simp only [State.modStrikes_strikes] at hlt ⊢
    rw [hg] at hlt ⊢
    have := hc hlt
    have h1 := hs t.strikes.counters (by omega) (by omega) (by omega)
    rw [List.length_erase_of_mem he]
    omega
  · simp only
    rw [List.length_erase_of_mem he]
    omega

namespace ShowSide

theorem removeMuted {e : StrikeEntry} (he : e ∈ t.strikes.queue) (h : ShowSide s t) : ShowSide s (t.removeMuted e) :=
  removed he (fun _ => rfl) (fun c _ hm _ => by simp only [sat48_of_lt hm]; omega) h

theorem removeLate {e : StrikeEntry} (he : e ∈ t.strikes.queue) (h : ShowSide s t) : ShowSide s (t.removeLate e) :=
  removed he (fun _ => rfl) (fun c _ _ hl => by simp only [sat48_of_lt hl]; omega) h

theorem countRefused {g : StrikeCounters → StrikeCounters}
    (hg : ∀ c, (g c).enqueued = c.enqueued ∧ (g c).launched = c.launched ∧ (g c).muted = c.muted ∧ (g c).late = c.late ∧
      (g c).flushed = c.flushed) (h : ShowSide s t) : ShowSide s (t.countStrike g) := by
  rw [countStrike_eq]
  refine modStrikes (fun hc hlt => ?_) id h
  obtain ⟨h1, h2, h3, h4, h5⟩ := hg t.strikes.counters
  simp only [State.modStrikes_strikes] at hlt ⊢
  rw [h1] at hlt
  rw [h1, h2, h3, h4, h5]
  exact hc hlt

theorem refuseUnavailable (h : ShowSide s t) : ShowSide s t.refuseUnavailable :=
  countRefused (fun _ => ⟨rfl, rfl, rfl, rfl, rfl⟩) h

end ShowSide

theorem length_placeStrike (x : StrikeEntry) (q : List StrikeEntry) : (placeStrike x q).length = q.length + 1 := by
  induction q with
  | nil => rfl
  | cons e q ih =>
    unfold placeStrike
    split
    · rfl
    · simp only [List.length_cons, ih]

theorem mem_placeStrike (x : StrikeEntry) (q : List StrikeEntry) : x ∈ placeStrike x q := by
  induction q with
  | nil => exact List.mem_singleton.2 rfl
  | cons e q ih =>
    unfold placeStrike
    split
    · exact List.mem_cons_self
    · exact List.mem_cons_of_mem _ ih

theorem length_filter_add_not {α : Type} (p : α → Bool) (l : List α) :
    (l.filter p).length + (l.filter fun x => !p x).length = l.length := by
  induction l with
  | nil => rfl
  | cons x l ih => cases h : p x <;> simp [h] <;> omega

/-- A count that rises by `k` while it stays below its largest value. -/
theorem add48_of_lt {n k : Nat} (h : n + k < Config.maxStage) : add48 n k = n + k := by
  simp only [add48]; omega

theorem le_add48 (n k : Nat) : n ≤ add48 n k := by simp only [add48]; omega

namespace ShowSide

theorem enqueued {e : StrikeEntry} (hl : t.strikes.queue.length < 32) (h : ShowSide s t) :
    ShowSide s ((t.modStrikes fun k => { k with queue := placeStrike e k.queue, enqueued := k.enqueued + 1 }).countStrike
      fun c => { c with enqueued := sat48 c.enqueued }) := by
  rw [countStrike_modStrikes]
  refine modStrikes (fun hc hlt => ?_) (fun _ => ?_) h
  · simp only [State.modStrikes_strikes] at hlt ⊢
    have hlt' : t.strikes.counters.enqueued < Config.maxStage := by
      simp only [sat48] at hlt; split at hlt <;> omega
    have := hc hlt'
    rw [sat48_of_lt hlt', length_placeStrike]
    omega
  · simp only [length_placeStrike]; omega

theorem enqueueStrike {b : BellId} {ve d f sound launch latest : Nat} {o : Option PlayerId} {r : Option RollId}
    (h : ShowSide s t) : ShowSide s (t.enqueueStrike b ve d f sound launch latest o r).1 := by
  unfold State.enqueueStrike
  split
  · dsimp only
    refine countRefused (fun c => ?_) h
    exact ⟨rfl, rfl, rfl, rfl, rfl⟩
  · split
    · rename_i hq
      dsimp only
      split
      · exact removeMuted (mem_placeStrike _ _) (enqueued hq h)
      · exact enqueued hq h
    · dsimp only
      refine countRefused (fun c => ?_) h
      exact ⟨rfl, rfl, rfl, rfl, rfl⟩

theorem lateEnqueue (h : ShowSide s t) :
    ShowSide s (t.countStrike fun c => { c with enqueued := sat48 c.enqueued, late := sat48 c.late }) := by
  rw [countStrike_eq]
  refine modStrikes (fun hc hlt => ?_) id h
  simp only [State.modStrikes_strikes] at hlt ⊢
  have hlt' : t.strikes.counters.enqueued < Config.maxStage := by
    simp only [sat48] at hlt; split at hlt <;> omega
  have := hc hlt'
  rw [sat48_of_lt hlt', sat48_of_lt (by omega)]
  omega

theorem offerAt {b : BellId} {v sound : Nat} {o : Option PlayerId} {r : Option RollId} (h : ShowSide s t) :
    ShowSide s (t.offerAt b v sound o r).1 := by
  unfold State.offerAt
  dsimp only
  split
  · exact enqueueStrike h
  · split
    · exact enqueueStrike h
    · exact lateEnqueue h

theorem offerStrike {b v sound : Nat} {o : Option PlayerId} {r : Option RollId} (h : ShowSide s t) :
    ShowSide s (t.offerStrike b v sound o r).1 := by
  unfold State.offerStrike
  split
  · exact offerAt h
  · exact refuseUnavailable h

theorem flushStrikes {pick : StrikeEntry → Bool} (h : ShowSide s t) : ShowSide s (t.flushStrikes pick) := by
  unfold State.flushStrikes
  dsimp only
  rw [countStrike_modStrikes]
  have hsum : (t.strikes.queue.filter pick).length + (t.strikes.queue.filter fun e => !pick e).length =
      t.strikes.queue.length := by
    exact length_filter_add_not pick _
  refine modStrikes (fun hc hlt => ?_) (fun hl => ?_) h
  · simp only [State.modStrikes_strikes] at hlt ⊢
    have := hc hlt
    rw [add48_of_lt (by omega)]
    omega
  · simp only; omega

theorem freeRolls {pick : Roll → Bool} (h : ShowSide s t) : ShowSide s (t.freeRolls pick) := by
  unfold State.freeRolls
  refine foldl (fun s r => ?_) h
  split
  · split
    · exact setRoll (.refl s)
    · exact .refl s
  · exact .refl s

theorem flushPlayer {p : PlayerId} (h : ShowSide s t) : ShowSide s (t.flushPlayer p) := freeRolls (flushStrikes h)

theorem flushBell {b : BellId} (h : ShowSide s t) : ShowSide s (t.flushBell b) := modBell (freeRolls (flushStrikes h))

theorem flushAllStrikes (h : ShowSide s t) : ShowSide s t.flushAllStrikes := freeRolls (flushStrikes h)

theorem rollCue {p : PlayerId} {b v i j n sound : Nat} (h : ShowSide s t) :
    ShowSide s (t.rollCue p b v i j n sound) := by
  unfold State.rollCue
  split
  · exact refuseUnavailable h
  · split
    · exact offerAt (setRoll h)
    · exact offerAt (countRefused (fun _ => ⟨rfl, rfl, rfl, rfl, rfl⟩) h)

theorem issueRoll {r : RollId} (n : Nat) (h : ShowSide s t) : ShowSide s (Machine.issueRoll r n t) := by
  induction n generalizing t with
  | zero => exact h
  | succ n ih =>
    unfold Machine.issueRoll
    split
    · exact h
    · split
      · exact ih (setRoll (offerStrike h))
      · exact h

theorem launch {e : StrikeEntry} {k : Nat} (he : e ∈ t.strikes.queue) (h : ShowSide s t) : ShowSide s (t.launch e k) := by
  unfold State.launch
  exact modHammer (setSlot (modBell (removed he (fun _ => rfl) (fun c hl _ _ => by simp only [sat48_of_lt hl]; omega) h)))

theorem grantStep (h : ShowSide s t) : ShowSide s t.grantStep := by
  unfold State.grantStep
  split
  · rename_i e k hg
    refine launch ?_ h
    unfold State.nextGrant? at hg
    split at hg
    · rename_i hc _
      cases hg
      exact List.mem_of_find?_eq_some hc
    · cases hg
  · exact h

end ShowSide

end Sys2Proof.Machine
end

