-- ==== Sys2Proof/Laws/FollowFrame.lean ====
section
/-! SUPPORT. The frame of the fetch channels' and the show engine's operations, and of the follow-ups of an event. -/

namespace Sys2Proof.Machine

variable {s t u : State}

/-! ### Fetch channels -/

theorem scriptFault_lawful {c : Channel} (h : c.fifo.length ≤ 15) :
    c.scriptFault.fifo.length ≤ 16 ∧ c.scriptFault.loops.length ≤ 4 ∧ c.scriptFault.state ≠ .waitingStore := by
  simp only [Channel.scriptFault, List.length_append, List.length_singleton, List.length_nil]
  exact ⟨by omega, by omega, by decide⟩

/-- Play cues that are not the last of the script join the FIFO in their order, and the records behind them are taken next
(R69). -/
theorem takeRecords_plays (q : List FifoCue) (rs : List Record) (c : Channel) (hq : ∀ x ∈ q, x.cue ≠ .endShow)
    (hn : q = [] ∨ c.next + q.length < c.cueCount) :
    takeRecords ((q.map fun x => .play x.delta x.cue) ++ rs) c =
      takeRecords rs { c with fifo := c.fifo ++ q, next := c.next + q.length } := by
  induction q generalizing c with
  | nil => simp
  | cons x q ih =>
    have hlt : c.next + (q.length + 1) < c.cueCount := by simpa using hn
    have hx := hq x (by simp)
    have hm : Record.misplaced (.play x.delta x.cue) (c.next + 1 == c.cueCount) = false := by
      have : (c.next + 1 == c.cueCount) = false := by simp; omega
      rw [this]
      cases hc : x.cue <;> first | rfl | exact absurd hc hx
    have h1 : takeRecords ((x :: q).map (fun x => Record.play x.delta x.cue) ++ rs) c =
        takeRecords (q.map (fun x => Record.play x.delta x.cue) ++ rs)
          { c with fifo := c.fifo ++ [x], next := c.next + 1 } := by
      simp only [List.map_cons, List.cons_append]
      rw [takeRecords, hm]
      · obtain ⟨d, q⟩ := x
        cases q <;> rfl
      · exact hx
    rw [h1, ih _ (fun y hy => hq y (by simp [hy])) (.inr (by show c.next + 1 + q.length < c.cueCount; omega))]
    simp only [List.append_assoc, List.singleton_append, List.length_cons]
    congr 2
    omega

/-- A channel that takes `n` records with `n` places left stays lawful (R66, R69 to R73). -/
theorem takeRecords_lawful (rs : List Record) (c : Channel) (h : c.fifo.length + rs.length ≤ 16) (hl : c.loops.length ≤ 4)
    (hs : c.state ≠ .waitingStore) :
    (takeRecords rs c).1.fifo.length ≤ 16 ∧ (takeRecords rs c).1.loops.length ≤ 4 ∧
      (takeRecords rs c).1.state ≠ .waitingStore := by
  induction rs generalizing c with
  | nil => exact ⟨by simpa [takeRecords] using h, by simpa [takeRecords] using hl, by simpa [takeRecords] using hs⟩
  | cons r rs ih =>
    simp only [List.length_cons] at h
    have hf := scriptFault_lawful (c := c) (by omega)
    unfold takeRecords
    split
    · exact hf
    · split
      · exact hf
      · simp only [List.length_append, List.length_singleton]
        exact ⟨by omega, hl, by decide⟩
      · refine ih _ ?_ hl hs
        simp only [List.length_append, List.length_singleton]; omega
      · split
        · rename_i hd
          refine ih _ (by simp only; omega) ?_ hs
          simp only [List.length_cons]
          exact hd.2.2
        · exact hf
      · split
        · exact hf
        · rename_i e es he
          have hes : es.length + 1 ≤ 4 := by rw [he] at hl; simpa using hl
          split
          · exact hf
          · split
            · simp only [List.length_cons]; exact ⟨by omega, hes, hs⟩
            · exact ih _ (by simp only; omega) (by simp only; omega) hs

theorem length_recordsFrom (n : Nvm) (f i k : Nat) : (recordsFrom n f i k).length = k := by simp [recordsFrom]

theorem blockLength_le (c : Channel) : c.blockLength ≤ 8 := by
  have h : Config.blockSize = 8 := rfl
  simp only [Channel.blockLength, h]; omega

namespace ShowSide

theorem queueRead {p : PlayerId} {k : Bool} (hp : (t.channel p).lawful → (t.channel p).fifo.length ≤ 8)
    (h : ShowSide s t) : ShowSide s (t.queueRead p k) :=
  modChannel (fun hl => ⟨hl.1, hl.2.1, fun _ => ⟨hp hl, by simp, by simp⟩, fun e => by simp at e⟩) h

theorem waitStore {p : PlayerId} (hp : (t.channel p).lawful → (t.channel p).fifo.length ≤ 8) (h : ShowSide s t) :
    ShowSide s (t.waitStore p) :=
  modChannel (fun hl => ⟨hl.1, hl.2.1, fun e => by simp at e, fun _ => hp hl⟩) h

theorem suspendErase {n : Nat} (h : ShowSide s t) : ShowSide s (t.suspendErase n) :=
  countStore (modStore (fun _ => rfl) h)

theorem placeRead {p : PlayerId} (hp : (t.channel p).lawful → (t.channel p).fifo.length ≤ 8) (h : ShowSide s t) :
    ShowSide s (t.placeRead p) := by
  unfold State.placeRead
  dsimp only
  split
  · exact queueRead hp h
  · exact queueRead hp h
  · split
    · exact queueRead hp (suspendErase h)
    · exact waitStore hp h
  · exact waitStore hp h

theorem testNeed {p : PlayerId} (h : ShowSide s t) : ShowSide s (t.testNeed p) := by
  unfold State.testNeed
  split
  · rename_i hn
    refine placeRead (fun _ => ?_) h
    simp only [Channel.needs, Channel.fill, Bool.and_eq_true] at hn
    exact of_decide_eq_true hn.2
  · exact h

theorem testDispatch {p : PlayerId} (h : ShowSide s t) : ShowSide s (t.testDispatch p) := by
  unfold State.testDispatch
  split
  · rename_i hn
    refine placeRead (fun hl => ?_) h
    simp only [Bool.or_eq_true] at hn
    rcases hn with hn | hn
    · simp only [Channel.needs, Channel.fill, Bool.and_eq_true] at hn
      exact of_decide_eq_true hn.2
    · simp only [State.storeOpen, Bool.and_eq_true, beq_iff_eq] at hn
      exact hl.2.2.2 hn.1
  · exact h

theorem retestQueued {p : PlayerId} (h : ShowSide s t) : ShowSide s (t.retestQueued p) := by
  unfold State.retestQueued
  dsimp only
  split
  · rename_i hr
    have hp : (t.channel p).lawful → (t.channel p).fifo.length ≤ 8 := fun hl => (hl.2.2.1 (by rw [hr]; simp)).1
    split
    · split
      · exact queueRead hp (suspendErase h)
      · exact waitStore hp h
    · split
      · exact queueRead hp h
      · exact waitStore hp h
    · exact waitStore hp h
    · exact h
  · exact h

theorem storeWaitStep {p : PlayerId} (h : ShowSide s t) : ShowSide s (t.storeWaitStep p) := by
  unfold State.storeWaitStep
  split
  · rename_i ho
    refine placeRead (fun hl => hl.2.2.2 ?_) h
    simp only [State.storeOpen, Bool.and_eq_true, beq_iff_eq] at ho
    exact ho.1
  · exact h

theorem resumeErase (h : ShowSide s t) : ShowSide s t.resumeErase := by
  unfold State.resumeErase
  split
  · split
    · exact foldl (fun s p => retestQueued (.refl s)) (modStore (fun _ => rfl) h)
    · exact h
  · exact h

theorem takeHead {p : PlayerId} {k : Bool} (h : ShowSide s t) : ShowSide s (t.takeHead p k) := by
  unfold State.takeHead
  split
  · exact modPlayer h
  · exact h

theorem blockComplete {p : PlayerId} (h : ShowSide s t) : ShowSide s (t.blockComplete p) := by
  unfold State.blockComplete
  dsimp only
  split
  · rename_i hr
    refine testNeed ?_
    have h1 : ShowSide s (t.modChannel p fun _ =>
        { (takeRecords (recordsFrom t.store.nvm (t.channel p).firstPage (t.channel p).next (t.channel p).blockLength)
            (t.channel p)).1 with
          read := .none, asking := false,
          blocksRead := sat32 (takeRecords (recordsFrom t.store.nvm (t.channel p).firstPage (t.channel p).next
            (t.channel p).blockLength) (t.channel p)).1.blocksRead }) := by
      refine modChannel (fun hl => ?_) h
      have h8 := hl.2.2.1 (by rw [hr]; simp)
      have hb := blockLength_le (t.channel p)
      have hk := takeRecords_lawful (recordsFrom t.store.nvm (t.channel p).firstPage (t.channel p).next
        (t.channel p).blockLength) (t.channel p) (by rw [length_recordsFrom]; omega) hl.2.1 h8.2.1
      exact ⟨hk.1, hk.2.1, fun e => absurd rfl e, fun e => absurd e hk.2.2⟩
    by_cases he : (t.channel p).fifo = []
    · rw [if_pos he]
      split
      · exact report (takeHead h1)
      · exact takeHead h1
    · rw [if_neg he]
      split
      · exact report h1
      · exact h1
  · exact h

theorem startChannel {p : PlayerId} {n : Nat} {v : Version} (h : ShowSide s t) : ShowSide s (t.startChannel p n v) := by
  unfold State.startChannel
  exact testNeed (modChannel (fun _ => ⟨Nat.zero_le _, Nat.zero_le _, fun e => absurd rfl e, fun e => nomatch e⟩) h)

theorem stopChannel {p : PlayerId} (h : ShowSide s t) : ShowSide s (t.stopChannel p) := by
  unfold State.stopChannel
  exact resumeErase (modChannel (fun _ => ⟨Nat.zero_le _, Nat.zero_le _, fun e => absurd rfl e, fun e => nomatch e⟩) h)

/-! ### The start queue and the players -/

theorem failStart {b : Bool} {e : StartEntry} (h : ShowSide s t) : ShowSide s (t.failStart b e) := countShow (report h)

theorem expireStart {e : StartEntry} (h : ShowSide s t) : ShowSide s (t.expireStart e) := by
  unfold State.expireStart
  exact oweAttempt (countShow (report (modShows (fun hl => Nat.le_trans (List.length_erase_le ..) hl) h)))

theorem flushStarts (h : ShowSide s t) : ShowSide s t.flushStarts := by
  unfold State.flushStarts
  exact modShows (fun _ => by simp) (foldl (fun s e => failStart (.refl s)) h)

theorem claimAxes {p : PlayerId} {m : BitVec 8} (h : ShowSide s t) : ShowSide s (t.claimAxes p m) := by
  unfold State.claimAxes
  refine foldl (fun s a => ?_) h
  split
  · exact modAxis (fun _ => rfl) (.refl s)
  · exact .refl s

theorem admitStart {e : StartEntry} {v : Version} {p : PlayerId} (h : ShowSide s t) :
    ShowSide s (t.admitStart e v p) := by
  unfold State.admitStart
  exact startChannel (modDir (claimAxes (modPlayer (countShow (modShows id h)))))

theorem walkStarts (q : List StartEntry) (h : ShowSide s t) : ShowSide s (Machine.walkStarts q t).1 := by
  induction q generalizing t with
  | nil => exact h
  | cons e q ih =>
    unfold Machine.walkStarts
    split
    · exact ih (failStart h)
    · split
      · split
        · exact ih (admitStart h)
        · exact ih h
      · exact ih h

theorem clearWork {p : PlayerId} {k : Bool} (h : ShowSide s t) : ShowSide s (t.clearWork p k) := by
  unfold State.clearWork
  refine foldl (fun s a => ?_) (foldl (fun s a => ?_) (flushPlayer h))
  · split
    · split
      · exact axisSide (.refl s) (.stopMotion (.refl s))
      · exact axisSide (.refl s) (.stopMotion (.refl s))
    · exact .refl s
  · split
    · exact axisSide (.refl s) (.discardMove (.refl s))
    · exact .refl s

theorem abortPlayer {p : PlayerId} {o : ShowOutcome} (h : ShowSide s t) : ShowSide s (t.abortPlayer p o) := by
  unfold State.abortPlayer
  dsimp only
  split
  · exact clearWork (stopChannel (modPlayer h))
  · split
    · exact clearWork (modPlayer h)
    · exact h

theorem reclaim {g : ProgId} {v : Version} (h : ShowSide s t) : ShowSide s (t.reclaim g v) :=
  countStore (report (modDir (setPages h)))

theorem unpin {g n : Nat} (h : ShowSide s t) : ShowSide s (t.unpin g n) := by
  unfold State.unpin
  split
  · exact h
  · dsimp only
    split
    · exact modDir h
    · split
      · split
        · split
          · exact reclaim (modDir h)
          · exact modDir h
        · exact h
      · exact h

theorem releasePlayer {p : PlayerId} (h : ShowSide s t) : ShowSide s (t.releasePlayer p) := by
  unfold State.releasePlayer
  dsimp only
  refine oweAttempt (modPlayer (countShow (report (unpin (foldl (fun s a => ?_) h)))))
  split
  · exact modAxis (fun _ => rfl) (.refl s)
  · exact .refl s

theorem preempt (h : ShowSide s t) : ShowSide s t.preempt := by
  unfold State.preempt
  split
  · exact h
  · split
    · exact h
    · exact countShow (abortPlayer h)

theorem requestHomings (h : ShowSide s t) : ShowSide s t.requestHomings := by
  unfold State.requestHomings
  split
  · refine foldl (fun s a => ?_) h
    split
    · exact axisSide (.refl s) (.requestHoming (.refl s))
    · exact .refl s
  · exact h

end ShowSide

theorem length_walkStarts (q : List StartEntry) (s : State) : (walkStarts q s).2.length ≤ q.length := by
  induction q generalizing s with
  | nil => exact Nat.le_refl _
  | cons e q ih =>
    unfold walkStarts
    split
    · exact Nat.le_succ_of_le (ih _)
    · split
      · split
        · exact Nat.le_succ_of_le (ih _)
        · exact Nat.succ_le_succ (ih _)
      · exact Nat.succ_le_succ (ih _)

namespace ShowSide

theorem setQueue {q : List StartEntry} (hq : s.shows.queue.length ≤ 8 → q.length ≤ 8) (h : ShowSide s t) :
    ShowSide s (t.modShows fun b => { b with queue := q }) :=
  ⟨by rw [h.rest]; rfl, h.hammer, h.stage, h.axes, h.config, h.store, h.told, h.fifo, h.conserved, hq, h.strikes⟩

theorem admission (h : ShowSide s t) : ShowSide s t.admission := by
  unfold State.admission
  exact h.trans (requestHomings (preempt (setQueue (Nat.le_trans (length_walkStarts _ _))
    (walkStarts _ (modTodo (.refl t))))))

/-! ### Dispatch -/

theorem popCue {p : PlayerId} (h : ShowSide s t) : ShowSide s (t.popCue p) := by
  unfold State.popCue
  refine testDispatch (takeHead (modPlayer (modChannel (fun hl => ?_) h)))
  have ht : (t.channel p).fifo.tail.length ≤ (t.channel p).fifo.length := by simp
  exact ⟨Nat.le_trans ht hl.1, hl.2.1, fun e => ⟨Nat.le_trans ht (hl.2.2.1 e).1, (hl.2.2.1 e).2⟩,
    fun e => Nat.le_trans ht (hl.2.2.2 e)⟩

theorem moveCue {p : PlayerId} {a : Nat} {x : Int} {r k d : Nat} (h : ShowSide s t) :
    ShowSide s (t.moveCue p a x r k d) := by
  unfold State.moveCue
  split
  · exact modPlayer (popCue h)
  · split
    · split
      · exact modPlayer h
      · dsimp only
        refine axisSide ?_ (.placeMove (.refl _))
        split
        · exact modPlayer (popCue h)
        · exact popCue h
    · exact modPlayer (popCue h)

theorem waitAxisCue {p : PlayerId} {a k : Nat} (h : ShowSide s t) : ShowSide s (t.waitAxisCue p a k) := by
  unfold State.waitAxisCue
  dsimp only
  split
  · exact popCue h
  · split
    · exact popCue h
    · exact modPlayer (popCue h)

theorem dispatchCue {p : PlayerId} {c : Cue} {d : Nat} (h : ShowSide s t) : ShowSide s (t.dispatchCue p c d) := by
  unfold State.dispatchCue
  dsimp only
  split
  · exact offerStrike (popCue h)
  · exact rollCue (popCue h)
  · exact moveCue h
  · exact waitAxisCue h
  · exact report (popCue h)
  · exact stopChannel (modPlayer (popCue h))

theorem dispatchCues {p : PlayerId} (n : Nat) (h : ShowSide s t) : ShowSide s (Machine.dispatchCues p n t) := by
  induction n generalizing t with
  | zero => exact h
  | succ n ih =>
    unfold Machine.dispatchCues
    split
    · exact ih (dispatchCue h)
    · exact h

theorem startPlaying {p : PlayerId} (h : ShowSide s t) : ShowSide s (t.startPlaying p) := by
  unfold State.startPlaying
  dsimp only
  split
  · exact report (modPlayer h)
  · exact h

theorem playerTick {p : PlayerId} (h : ShowSide s t) : ShowSide s (t.playerTick p) := by
  unfold State.playerTick
  exact modPlayer (dispatchCues _ (startPlaying (modPlayer h)))

theorem timeOutWait {p : PlayerId} (h : ShowSide s t) : ShowSide s (t.timeOutWait p) := by
  unfold State.timeOutWait
  exact modPlayer (report h)

/-! ### The follow-ups -/

theorem slotWaitStep {p : PlayerId} (h : ShowSide s t) : ShowSide s (t.slotWaitStep p) := by
  unfold State.slotWaitStep
  split
  · dsimp only
    split
    · exact close (moveCue (modPlayer h))
    · exact close (modPlayer h)
  · exact h

theorem awaitStep {p : PlayerId} (h : ShowSide s t) : ShowSide s (t.awaitStep p) := by
  unfold State.awaitStep
  split
  · exact modPlayer h
  · exact h

theorem waitAxisStep {p : PlayerId} (h : ShowSide s t) : ShowSide s (t.waitAxisStep p) := by
  unfold State.waitAxisStep
  split
  · exact modPlayer h
  · exact h

theorem attemptStep (h : ShowSide s t) : ShowSide s t.attemptStep := close (admission h)

theorem releaseStep {p : PlayerId} (h : ShowSide s t) : ShowSide s (t.releaseStep p) := by
  unfold State.releaseStep
  split
  · exact close (releasePlayer h)
  · exact h

end ShowSide

theorem queuedChannel_read {p : PlayerId} (h : s.queuedChannel? = some p) : (s.channel p).read = .queued := by
  revert h
  unfold State.queuedChannel?
  generalize hl : (allPlayers.filter fun p => (s.channel p).read == .queued) = l
  have hall : ∀ q ∈ l, (s.channel q).read = .queued := by
    intro q hq
    rw [← hl] at hq
    simpa using (List.mem_filter.1 hq).2
  have key : ∀ (l : List PlayerId) (best : Option PlayerId), (∀ q ∈ l, (s.channel q).read = .queued) →
      (∀ q, best = some q → (s.channel q).read = .queued) →
      ∀ p, l.foldl (fun best p => match best with
        | none => some p
        | some q => if (s.channel p).fill < (s.channel q).fill then some p else some q) best = some p →
        (s.channel p).read = .queued := by
    intro l
    induction l with
    | nil => intro best _ hb p hp; exact hb p hp
    | cons x l ih =>
      intro best hx hb p hp
      refine ih _ (fun q hq => hx q (List.mem_cons_of_mem _ hq)) ?_ p hp
      intro q hq
      cases best with
      | none => simp only [Option.some.injEq] at hq; subst hq; exact hx _ List.mem_cons_self
      | some y =>
        simp only at hq
        split at hq
        · cases hq; exact hx _ List.mem_cons_self
        · cases hq; exact hb _ rfl
  intro h
  exact key l none hall (by simp) p h

theorem nextReader_queued {p : PlayerId} (h : s.nextReader? = some (.channel p)) : (s.channel p).read = .queued := by
  unfold State.nextReader? at h
  split at h
  · split at h
    · cases h
    · cases h
    · cases hc : s.queuedChannel? with
      | none => rw [hc] at h; cases h
      | some q => rw [hc] at h; cases h; exact queuedChannel_read hc
    · split at h
      · rename_i q hc; cases h; exact queuedChannel_read hc
      · split at h
        · cases h
        · split at h <;> cases h
  · cases h

namespace ShowSide

theorem grantRead {w : Requester} (hw : ∀ p, w = .channel p → (t.channel p).read = .queued) (h : ShowSide s t) :
    ShowSide s (t.grantRead w) := by
  unfold State.grantRead
  split
  · rename_i p
    refine modChannel (fun hl => ?_) (modStore (fun _ => rfl) h)
    have hq := hw p rfl
    have h8 := hl.2.2.1 (by show (t.channel p).read ≠ _; rw [hq]; simp)
    exact ⟨hl.1, hl.2.1, fun _ => h8, hl.2.2.2⟩
  · split
    · exact modStore (fun _ => rfl) (modStore (fun _ => rfl) h)
    · exact h
  · exact modStore (fun _ => rfl) (modStore (fun _ => rfl) h)

theorem readGrantStep (h : ShowSide s t) : ShowSide s t.readGrantStep := by
  unfold State.readGrantStep
  split
  · rename_i r hr
    exact grantRead (fun p e => nextReader_queued (by rw [hr, e])) h
  · exact h

theorem follow {f : Follow} (h : ShowSide s t) : ShowSide s (f.run t) := by
  cases f with
  | storeWaitEnd p => exact storeWaitStep h
  | slotWaitEnd p => exact slotWaitStep h
  | awaitEnd p => exact awaitStep h
  | waitAxisEnd p => exact waitAxisStep h
  | slotGrant => exact grantStep h
  | attempt => exact attemptStep h
  | release p => exact releaseStep h
  | readGrant => exact readGrantStep h

theorem settleFor (n : Nat) (h : ShowSide s t) : ShowSide s (Machine.settleFor n t) := by
  induction n generalizing t with
  | zero => exact h
  | succ n ih =>
    unfold Machine.settleFor
    split
    · exact ih (follow h)
    · exact h

theorem settle (h : ShowSide s t) : ShowSide s (Machine.settle t) := settleFor _ h

end ShowSide

end Sys2Proof.Machine
end

