-- ==== Sys2Proof/Laws/Memory.lean ====
section
/-! SUPPORT. The non-volatile array: every operation on it keeps the canonical form, an erased page reads 0xFF, a programmed
page reads its image, and no other page changes. -/

namespace Sys2Proof.Machine

theorem wf_iff (l : List Host.Cell) :
    Memory.wf l = true ↔ l.Pairwise (fun a b => a.1 < b.1) ∧ ∀ c ∈ l, c.2 ≠ 0xFF#8 ∧ c.1 < 262144 := by
  simp [Memory.wf]

/-- The array of a part never written is in canonical form. -/
theorem blank_wf : Memory.wf Nvm.blank.cells = true := by decide

/-- So is the array at reset. -/
theorem reset_wf : Memory.wf State.reset.store.nvm.cells = true := blank_wf

theorem filter_wf {l : List Host.Cell} (f : Host.Cell → Bool) (h : Memory.wf l = true) : Memory.wf (l.filter f) = true := by
  rw [wf_iff] at h ⊢
  exact ⟨h.1.filter _, fun c hc => h.2 c (List.mem_filter.1 hc).1⟩

/-- The listed cells of a run of bytes rise from its first address, and list no 0xFF. -/
theorem cellsFrom_spec (bs : List Byte) (a : Nat) :
    (cellsFrom a bs).Pairwise (fun a b => a.1 < b.1) ∧
      ∀ c ∈ cellsFrom a bs, c.2 ≠ 0xFF#8 ∧ a ≤ c.1 ∧ c.1 < a + bs.length := by
  induction bs generalizing a with
  | nil => exact ⟨List.Pairwise.nil, fun c hc => absurd hc (by simp [cellsFrom])⟩
  | cons b bs ih =>
    have h := ih (a + 1)
    have hlift : ∀ c ∈ cellsFrom (a + 1) bs, c.2 ≠ 0xFF#8 ∧ a + 1 ≤ c.1 ∧ c.1 < a + 1 + bs.length := h.2
    unfold cellsFrom
    split
    · refine ⟨h.1, fun c hc => ?_⟩
      have := hlift c hc
      simp only [List.length_cons]
      exact ⟨this.1, by omega, by omega⟩
    · rename_i hb
      refine ⟨List.pairwise_cons.2 ⟨fun c hc => ?_, h.1⟩, fun c hc => ?_⟩
      · have := hlift c hc; simp only; omega
      · simp only [List.length_cons]
        rcases List.mem_cons.1 hc with rfl | hc
        · exact ⟨hb, by simp only; omega, by simp only; omega⟩
        · have := hlift c hc; exact ⟨this.1, by omega, by omega⟩

theorem erasePage_wf {n : Nvm} (p : Nat) (h : Memory.wf n.cells = true) : Memory.wf (n.erasePage p).cells = true :=
  filter_wf _ h

theorem cutPage_wf {n : Nvm} (p : Nat) (h : Memory.wf n.cells = true) : Memory.wf (n.cutPage p).cells = true := h

theorem programPage_wf {n : Nvm} (p : Nat) (image : List Byte) (h : Memory.wf n.cells = true) :
    Memory.wf (n.programPage p image).cells = true := by
  unfold Nvm.programPage
  split
  · rename_i hp
    have hc := cellsFrom_spec (image.take 512) (512 * p)
    have hlen : (image.take 512).length ≤ 512 := by rw [List.length_take]; exact Nat.min_le_left _ _
    have hf := (wf_iff _).1 h
    simp only [wf_iff]
    refine ⟨List.pairwise_append.2 ⟨List.pairwise_append.2 ⟨hf.1.filter _, hc.1, fun x hx y hy => ?_⟩, hf.1.filter _,
      fun x hx y hy => ?_⟩, fun c hm => ?_⟩
    · have h1 := of_decide_eq_true (List.mem_filter.1 hx).2
      have h2 := hc.2 y hy
      omega
    · have h2 := of_decide_eq_true (List.mem_filter.1 hy).2
      rcases List.mem_append.1 hx with hx | hx
      · have h1 := of_decide_eq_true (List.mem_filter.1 hx).2; omega
      · have h1 := hc.2 x hx; omega
    · rcases List.mem_append.1 hm with hm | hm
      · rcases List.mem_append.1 hm with hm | hm
        · exact hf.2 c (List.mem_filter.1 hm).1
        · have h1 := hc.2 c hm; exact ⟨h1.1, by omega⟩
      · exact hf.2 c (List.mem_filter.1 hm).1
  · exact h

/-! ### Reading one byte -/

theorem find_filter_of_keep {l : List Host.Cell} {f : Host.Cell → Bool} {a : Nat} (h : ∀ c : Host.Cell, c.1 = a → f c = true) :
    (l.filter f).find? (fun c => c.1 == a) = l.find? fun c => c.1 == a := by
  induction l with
  | nil => rfl
  | cons c l ih =>
    by_cases hc : c.1 = a
    · rw [List.filter_cons_of_pos (h c hc)]; simp [hc]
    · by_cases hf : f c = true
      · rw [List.filter_cons_of_pos hf]; simp [hc, ih]
      · rw [List.filter_cons_of_neg hf]; simp [hc, ih]

theorem find_filter_of_drop {l : List Host.Cell} {f : Host.Cell → Bool} {a : Nat} (h : ∀ c : Host.Cell, c.1 = a → f c = false) :
    (l.filter f).find? (fun c => c.1 == a) = none := by
  rw [List.find?_eq_none]
  intro c hc
  have hf := (List.mem_filter.1 hc).2
  simp only [beq_iff_eq]
  intro e
  rw [h c e] at hf
  cases hf

theorem find_cellsFrom (bs : List Byte) (a k : Nat) :
    (((cellsFrom a bs).find? fun c => c.1 == a + k).map (·.2)).getD 0xFF#8 = bs.getD k 0xFF#8 := by
  induction bs generalizing a k with
  | nil => rfl
  | cons b bs ih =>
    cases k with
    | zero =>
      unfold cellsFrom
      split
      · rename_i hb
        have hn : (cellsFrom (a + 1) bs).find? (fun c => c.1 == a + 0) = none := by
          rw [List.find?_eq_none]
          intro c hc
          have := (cellsFrom_spec bs (a + 1)).2 c hc
          simp only [beq_iff_eq]; omega
        rw [hn, hb]; rfl
      · simp
    | succ k =>
      have h := ih (a + 1) k
      rw [show a + 1 + k = a + (k + 1) by omega] at h
      unfold cellsFrom
      split
      · simpa using h
      · have hne : (a == a + (k + 1)) = false := by simp
        simp only [List.find?_cons, hne]
        simpa using h

/-- What `Nvm.byte` reads of a page that no main reset has cut. -/
theorem byte_of_whole {n : Nvm} {a : Nat} (h : a / 512 < 512) (hc : n.cut[a / 512] = none) :
    n.byte a = ((n.cells.find? fun c => c.1 == a).map (·.2)).getD 0xFF#8 := by
  simp only [Nvm.byte, h, dif_pos, hc]
  cases n.cells.find? (fun c => c.1 == a) <;> rfl

/-- Erasing a page leaves every byte of every other page. -/
theorem byte_erasePage_ne {n : Nvm} {p a : Nat} (h : a / 512 ≠ p) : (n.erasePage p).byte a = n.byte a := by
  have hcut : (if k : a / 512 < 512 then (n.erasePage p).cut[a / 512] else none) =
      (if k : a / 512 < 512 then n.cut[a / 512] else none) := by
    split
    · simp only [Nvm.erasePage]
      split
      · rw [Vector.getElem_set_ne _ _ (Ne.symm h)]
      · rfl
    · rfl
  have hf : (n.erasePage p).cells.find? (fun c => c.1 == a) = n.cells.find? fun c => c.1 == a :=
    find_filter_of_keep (by rintro c rfl; simpa using h)
  simp only [Nvm.byte, hcut, hf]

/-- An erased page reads 0xFF (R163). -/
theorem byte_erasePage {n : Nvm} {p a : Nat} (hp : p < 512) (h : a / 512 = p) : (n.erasePage p).byte a = 0xFF#8 := by
  subst h
  have hcut : (n.erasePage (a / 512)).cut[a / 512] = none := by simp [Nvm.erasePage, hp]
  have hf : (n.erasePage (a / 512)).cells.find? (fun c => c.1 == a) = none :=
    find_filter_of_drop (by rintro c rfl; simp)
  rw [byte_of_whole hp hcut, hf]; rfl

theorem find_append (l m : List Host.Cell) (a : Nat) :
    (l ++ m).find? (fun c => c.1 == a) = (l.find? fun c => c.1 == a).or (m.find? fun c => c.1 == a) :=
  List.find?_append

/-- Programming a page leaves every byte of every other page. -/
theorem byte_programPage_ne {n : Nvm} {p a : Nat} {image : List Byte} (h : a / 512 ≠ p) :
    (n.programPage p image).byte a = n.byte a := by
  unfold Nvm.programPage
  split
  · have hlen : (image.take 512).length ≤ 512 := by rw [List.length_take]; exact Nat.min_le_left _ _
    have hc := (cellsFrom_spec (image.take 512) (512 * p)).2
    have hmid : (cellsFrom (512 * p) (image.take 512)).find? (fun c => c.1 == a) = none := by
      rw [List.find?_eq_none]
      intro c hm
      have := hc c hm
      simp only [beq_iff_eq]; omega
    have hf : ((n.cells.filter (fun c => c.1 < 512 * p) ++ cellsFrom (512 * p) (image.take 512)) ++
        n.cells.filter (fun c => 512 * (p + 1) ≤ c.1)).find? (fun c => c.1 == a) = n.cells.find? fun c => c.1 == a := by
      rw [find_append, find_append, hmid, Option.or_none]
      by_cases hlo : a < 512 * p
      · rw [find_filter_of_keep (f := fun c => decide (c.1 < 512 * p)) (by rintro c rfl; simpa using hlo),
          find_filter_of_drop (f := fun c => decide (512 * (p + 1) ≤ c.1)) (by rintro c rfl; simp; omega), Option.or_none]
      · rw [find_filter_of_drop (f := fun c => decide (c.1 < 512 * p)) (by rintro c rfl; simpa using hlo),
          find_filter_of_keep (f := fun c => decide (512 * (p + 1) ≤ c.1)) (by rintro c rfl; simp; omega), Option.none_or]
    simp only [Nvm.byte, hf]
  · rfl

/-- An erased page has nothing written in it, and a programmed one has. -/
@[simp] theorem written_erasePage (n : Nvm) {p : Nat} (hp : p < 512) : (n.erasePage p).written[p] = false := by
  simp [Nvm.erasePage, hp]

@[simp] theorem written_programPage (n : Nvm) {p : Nat} (image : List Byte) (hp : p < 512) :
    (n.programPage p image).written[p] = true := by
  simp [Nvm.programPage, hp]

/-- A page programmed since its last erase is not blank, whatever its bytes (R180). -/
theorem isBlank_programPage (n : Nvm) {p : Nat} (image : List Byte) (hp : p < 512) :
    (n.programPage p image).isBlank p = false := by
  simp [Nvm.isBlank, hp]

/-- A programmed page that no main reset has cut reads its image, and 0xFF behind it (R163). -/
theorem byte_programPage {n : Nvm} {p k : Nat} {image : List Byte} (hp : p < 512) (hcut : n.cut[p] = none) (hk : k < 512) :
    (n.programPage p image).byte (512 * p + k) = (image.take 512).getD k 0xFF#8 := by
  have hpage : (512 * p + k) / 512 = p := by omega
  have h512 : (512 * p + k) / 512 < 512 := by omega
  have hcut' : (n.programPage p image).cut[(512 * p + k) / 512] = none := by
    simp only [Nvm.programPage, hp, dif_pos, hpage]; exact hcut
  rw [byte_of_whole h512 hcut']
  simp only [Nvm.programPage, hp, dif_pos]
  rw [find_append, find_append,
    find_filter_of_drop (f := fun c => decide (c.1 < 512 * p)) (by intro c e; simp; omega),
    find_filter_of_drop (f := fun c => decide (512 * (p + 1) ≤ c.1)) (by intro c e; simp; omega), Option.none_or,
    Option.or_none]
  exact find_cellsFrom _ _ _

end Sys2Proof.Machine
end

