-- ==== Sys2Proof/Laws/Motion.lean ====
section
/-! SUPPORT. The hammer tick of one axis (R129 to R132, R135): what a step pulse and the last step of a burst bring about,
and what the end of a motion tells the players (R52, R143). -/

namespace Sys2Proof.Machine

variable {s : State} {a : AxisId}

theorem modAxis_modAxis (f g : Axis → Axis) : (s.modAxis a f).modAxis a g = s.modAxis a (fun x => g (f x)) := by
  unfold State.modAxis State.modAxes
  dsimp only
  congr 2
  rw [Vector.set_set]
  congr 1
  show g (Vector.set _ _ _ _)[a.val] = _
  rw [Vector.getElem_set_self]

/-! ### The end of a motion -/

/-- The awaited move of one player is marked ended when it awaits the axis and no move of its waits there. -/
theorem awaitedEnded_step (s : State) (a : AxisId) (p : PlayerId) :
    (if (s.axis a).slotOf p then s else s.awaitedEnded p a) =
      if (s.player p).awaits a && !(s.axis a).slotOf p then s.modPlayer p fun x => { x with awaitOver := true } else s := by
  unfold State.awaitedEnded
  cases (s.axis a).slotOf p <;> cases (s.player p).awaits a <;> rfl

/-- Marking awaited moves as ended leaves everything but the players alone, and each player as it should be. -/
theorem motionEnded_fold (ps : List PlayerId) (hn : ps.Nodup) (s : State) (a : AxisId) :
    let t := ps.foldl (fun s p => if (s.axis a).slotOf p then s else s.awaitedEnded p a) s
    t.axes = s.axes ∧ t.ports = s.ports ∧ t.todo = s.todo ∧ t.time = s.time ∧ t.stage = s.stage ∧
      ∀ p : PlayerId, t.player p = { s.player p with
        awaitOver := (s.player p).awaitOver || (decide (p ∈ ps) && ((s.player p).awaits a && !(s.axis a).slotOf p)) } := by
  induction ps generalizing s with
  | nil => exact ⟨rfl, rfl, rfl, rfl, rfl, fun p => by simp⟩
  | cons q ps ih =>
    dsimp only [List.foldl_cons]
    rw [awaitedEnded_step]
    have hq := (List.nodup_cons.mp hn).1
    split
    · rename_i h
      obtain ⟨h1, h2, h3, h4, h5, h6⟩ := ih (List.nodup_cons.mp hn).2 (s.modPlayer q fun x => { x with awaitOver := true })
      refine ⟨h1, h2, h3, h4, h5, fun p => ?_⟩
      rw [h6 p]
      by_cases hp : q = p
      · subst hp; rw [player_modPlayer]; simp [hq, h]
      · rw [player_modPlayer_ne hp]
        have : (s.modPlayer q fun x => { x with awaitOver := true }).axis a = s.axis a := rfl
        rw [this]; simp [Ne.symm hp]
    · rename_i h
      obtain ⟨h1, h2, h3, h4, h5, h6⟩ := ih (List.nodup_cons.mp hn).2 s
      refine ⟨h1, h2, h3, h4, h5, fun p => ?_⟩
      rw [h6 p]
      by_cases hp : q = p
      · subst hp; simp [hq, h]
      · simp [Ne.symm hp]

/-- What the end of a motion does (R52): the awaited moves of the players on the axis end, and nothing else changes of the
axes, the ports and what is owed. -/
theorem motionEnded_does (s : State) (a : AxisId) :
    (s.motionEnded a).axes = s.axes ∧ (s.motionEnded a).ports = s.ports ∧ (s.motionEnded a).todo = s.todo ∧
      (s.motionEnded a).time = s.time ∧ (s.motionEnded a).stage = s.stage ∧
      ∀ p : PlayerId, (s.motionEnded a).player p = { s.player p with
        awaitOver := (s.player p).awaitOver || ((s.player p).awaits a && !(s.axis a).slotOf p) } := by
  obtain ⟨h1, h2, h3, h4, h5, h6⟩ := motionEnded_fold allPlayers (by decide) s a
  refine ⟨h1, h2, h3, h4, h5, fun p => ?_⟩
  have hp : p ∈ allPlayers := by revert p; decide
  have h := h6 p
  rw [decide_eq_true hp, Bool.true_and] at h
  exact h

/-- Owing an admission attempt leaves the axes, the ports, the players and the owed tests alone (R40). -/
theorem oweIfFree_does (s : State) (a : AxisId) :
    (s.oweIfFree a).axes = s.axes ∧ (s.oweIfFree a).ports = s.ports ∧ (s.oweIfFree a).shows = s.shows ∧
      (s.oweIfFree a).todo.reeval = s.todo.reeval ∧ (s.oweIfFree a).todo.test = s.todo.test := by
  unfold State.oweIfFree
  dsimp only
  split <;> exact ⟨rfl, rfl, rfl, rfl, rfl⟩

/-- The tests that the end of a motion owes, after its players are told (R127, R143, R148). -/
theorem motionEnded_owes (s : State) (a : AxisId) :
    let t := (((s.motionEnded a).oweReeval).oweTest a).oweIfFree a
    t.axes = s.axes ∧ t.ports = s.ports ∧ t.todo.reeval = true ∧ t.todo.test[a] = true ∧
      ∀ p : PlayerId, (t.player p).awaitOver =
        ((s.player p).awaitOver || ((s.player p).awaits a && !(s.axis a).slotOf p)) := by
  obtain ⟨h1, h2, -, -, -, h6⟩ := motionEnded_does s a
  generalize s.motionEnded a = u at *
  obtain ⟨k1, k2, k3, k4, k5⟩ := oweIfFree_does ((u.oweReeval).oweTest a) a
  refine ⟨k1.trans h1, k2.trans h2, k4, ?_, fun p => ?_⟩
  · rw [k5]; exact Vector.getElem_set_self ..
  · rw [State.player, k3]; exact congrArg Player.awaitOver (h6 p)

/-! ### The last step of a burst -/

theorem axis_report (b : AxisId) (k : EventKind) (x : Option Subject) (d e : Option Int) :
    (s.report k x d e).axis b = s.axis b := rfl
theorem axis_countAxis (b : AxisId) (f : AxisCounters → AxisCounters) : (s.countAxis f).axis b = s.axis b := rfl
theorem axis_of_axes {s t : State} (h : t.axes = s.axes) (b : AxisId) : t.axis b = s.axis b := by
  simp only [State.axis, h]

/-- With an empty slot there is no move to discard (R126). -/
theorem discardMove_of_none {r : DiscardReason} (h : (s.axis a).slot = none) : s.discardMove a r = s := by
  unfold State.discardMove; rw [h]

/-- A move arrives (R130). -/
theorem arrive_does (s : State) (a : AxisId) :
    let x := s.axis a
    let t := s.arrive a
    t.axis a = { x with velocity := 0, stepAccumulator := 0, speedRemainder := 0, lastAction := .none, state := .idle,
                        burst := none } ∧
    t.ports = (s.report .axisArrived (some (.axis a.val)) (some x.position) (some (boolCode x.clamped))).ports ∧
    t.axes.counters = { s.axes.counters with
      arrivals := sat32 s.axes.counters.arrivals
      clamped := if x.clamped then sat32 s.axes.counters.clamped else s.axes.counters.clamped } ∧
    t.todo.reeval = true ∧ t.todo.test[a] = true ∧
    ∀ p : PlayerId, (t.player p).awaitOver = ((s.player p).awaitOver || ((s.player p).awaits a && !x.slotOf p)) := by
  dsimp only
  unfold State.arrive
  dsimp only
  rw [axis_modAxis]
  obtain ⟨h1, h2, h3, h4, h5⟩ := motionEnded_owes
    (((s.modAxis a fun x =>
      { x with velocity := 0, stepAccumulator := 0, speedRemainder := 0, lastAction := .none, state := .idle,
               burst := none }).report .axisArrived (some (.axis a.val)) (some (s.axis a).position)
      (some (boolCode (s.axis a).clamped))).countAxis fun c =>
        { c with arrivals := sat32 c.arrivals
                 clamped := if (s.axis a).clamped then sat32 c.clamped else c.clamped }) a
  refine ⟨?_, ?_, ?_, h3, h4, fun p => ?_⟩
  · rw [axis_of_axes h1, axis_countAxis, axis_report, axis_modAxis]
  · rw [h2]; rfl
  · rw [h1]; rfl
  · rw [h5 p, axis_countAxis, axis_report, axis_modAxis]; rfl

/-- A stop completes (R131) at an axis whose slot holds nothing or whose position is valid. -/
theorem completeStop_does (s : State) (a : AxisId) (k : Stop) (hk : (s.axis a).stop = some k)
    (hs : (s.axis a).positionValid = true ∨ (s.axis a).slot = none) :
    let x := s.axis a
    let t := s.completeStop a
    t.axis a = { x with velocity := 0, stepAccumulator := 0, speedRemainder := 0, lastAction := .none, stop := none,
                        burst := none, state := if x.positionValid then .idle else .unhomed } ∧
    t.ports = (s.report .axisStopped (some (.axis a.val)) (if x.positionValid then some x.position else none)
      (some k.cause.code)).ports ∧
    t.axes.counters = { s.axes.counters with stops := sat32 s.axes.counters.stops } ∧
    t.todo.reeval = true ∧ t.todo.test[a] = true := by
  dsimp only
  unfold State.completeStop
  dsimp only
  rw [hk]
  generalize hu : (((s.modAxis a fun x =>
      { x with velocity := 0, stepAccumulator := 0, speedRemainder := 0, lastAction := .none, stop := none, burst := none,
               state := if x.positionValid then .idle else .unhomed }).report .axisStopped (some (.axis a.val))
      (if (s.axis a).positionValid then some (s.axis a).position else none)
      (some k.cause.code)).countAxis fun c => { c with stops := sat32 c.stops }) = u
  have hx : u.axis a = { s.axis a with
      velocity := 0, stepAccumulator := 0, speedRemainder := 0, lastAction := .none, stop := none,
      burst := none, state := if (s.axis a).positionValid then .idle else .unhomed } := by
    rw [← hu, axis_countAxis, axis_report, axis_modAxis]
  have hif : (if (s.axis a).positionValid = true then u else u.discardMove a .unavailable) = u := by
    split
    · rfl
    · rename_i h; exact discardMove_of_none (by rw [hx]; exact hs.resolve_left h)
  rw [Option.map_some, hu, hif]
  obtain ⟨h1, h2, h3, h4, -⟩ := motionEnded_owes u a
  refine ⟨?_, ?_, ?_, h3, h4⟩
  · rw [axis_of_axes h1, hx]
  · rw [h2, ← hu]; rfl
  · rw [h1, ← hu]; rfl

/-- An emergency stop reaches the soft limit (R131), with no move waiting in the slot. -/
theorem limitFault_does (s : State) (a : AxisId) (hs : (s.axis a).slot = none) :
    let x := s.axis a
    let t := s.limitFault a
    t.axis a = { x with velocity := 0, stop := none, burst := none, state := .faulted, positionValid := false,
                        fault := some .limit } ∧
    t.ports = (s.report .axisFault (some (.axis a.val)) (some FaultReason.limit.code) (some x.position)).ports ∧
    t.axes.counters = { s.axes.counters with limitFaults := sat32 s.axes.counters.limitFaults } ∧
    t.todo.reeval = true := by
  dsimp only
  unfold State.limitFault
  dsimp only
  rw [discardMove_of_none (by rw [axis_countAxis, axis_report, axis_modAxis]; exact hs)]
  refine ⟨?_, rfl, rfl, rfl⟩
  exact (axis_of_axes (State.modTodo_axes _ _) a).trans (by rw [axis_countAxis, axis_report, axis_modAxis])

/-! ### A step of the burst -/

/-- What a step does to the passage, and when it is a crossing with no edge seen (R135). -/
theorem passageAfter_does (c : AxisConfig) (p z : Int) (d : Direction) (hz : z = p + d.sign) (q : Option Passage) :
    let near (z : Int) : Prop := c.home - c.slipTolerance ≤ z ∧ z ≤ c.home + c.slipTolerance
    (q = none →
      (near z →
        passageAfter c (p, z) q = (some { side := if d == .positive then .low else .high, edgeSeen := false }, false)) ∧
      (¬ near z → passageAfter c (p, z) q = (none, false))) ∧
    ∀ r : Passage, q = some r →
      let leftBack := if r.side = .low then z < c.home - c.slipTolerance else ¬ z < c.home - c.slipTolerance
      (near z → passageAfter c (p, z) q = (q, false)) ∧
      (¬ near z → (leftBack ∨ r.edgeSeen = true) → passageAfter c (p, z) q = (none, false)) ∧
      (¬ near z → ¬ leftBack → r.edgeSeen = false → passageAfter c (p, z) q = (q, true)) := by
  dsimp only
  have hn : ∀ x, c.inBand x = true ↔ (c.home - c.slipTolerance ≤ x ∧ x ≤ c.home + c.slipTolerance) := by
    
    intro x
    show (decide _ && decide _) = true ↔ _
    rw [Bool.and_eq_true, decide_eq_true_iff, decide_eq_true_iff]; rfl
  have hd : (p < z) = (d = .positive) := by
    subst hz
    cases d <;> simp only [Direction.sign, reduceCtorEq, eq_iff_iff, iff_true, iff_false] <;> omega
  refine ⟨?_, ?_⟩
  · rintro rfl
    refine ⟨fun h => ?_, fun h => ?_⟩
    · simp only [passageAfter, (hn z).2 h, if_true, hd]; cases d <;> simp
    · have : c.inBand z = false := by rw [← Bool.not_eq_true, hn]; exact h
      simp [passageAfter, this]
  · rintro ⟨side, seen⟩ rfl
    refine ⟨fun h => ?_, fun h g => ?_, fun h g e => ?_⟩
    · simp [passageAfter, (hn z).2 h]
    · have : c.inBand z = false := by rw [← Bool.not_eq_true, hn]; exact h
      simp only [passageAfter, this, AxisConfig.bandLow]
      cases side <;> cases seen <;> simp_all
    · have : c.inBand z = false := by rw [← Bool.not_eq_true, hn]; exact h
      simp only [passageAfter, this, AxisConfig.bandLow]
      cases side <;> cases seen <;> simp_all

/-- A burst with no step left does what the motion tick found (R130, R131), unless a slip is to be judged. -/
theorem stepAxis_ends (s : State) (a : AxisId) (b : Burst) (hb : (s.axis a).burst = some b) (h : b.total ≤ b.issued) :
    let u := s.modAxis a fun x => { x with burst := none }
    ((s.axis a).slipDue = true → s.stepAxis a = s) ∧
    ((s.axis a).slipDue = false →
      s.stepAxis a = match b.ends with
        | .none => u
        | .arrive => u.arrive a
        | .complete => u.completeStop a
        | .limit => u.limitFault a) := by
  have hstep : s.stepAxis a = s.finishBurst a := by
    unfold State.stepAxis
    simp only [hb]
    exact if_neg (by omega)
  rw [hstep]
  unfold State.finishBurst
  simp only [hb]
  exact ⟨fun k => if_neg (by simp [k]), fun k => (if_pos ⟨h, by simp [k]⟩).trans (by cases b.ends <;> rfl)⟩

/-- An issued step whose burst goes on, or that leaves a slip to be judged, is the pulse alone; the last one of a burst does
what the motion tick found (R129 to R131). -/
theorem stepAxis_issues (s : State) (a : AxisId) (b : Burst) (hb : (s.axis a).burst = some b)
    (h : b.issued < b.total) (hn : b.nextAt ≤ s.time.motionPhase) :
    let y := (s.axis a).pulseStep
    let u := s.modAxis a fun _ => { y with burst := none }
    (b.issued + 1 < b.total ∨ y.slipDue = true → s.stepAxis a = s.modAxis a fun _ => y) ∧
    (b.total = b.issued + 1 → y.slipDue = false →
      s.stepAxis a = match b.ends with
        | .none => u
        | .arrive => u.arrive a
        | .complete => u.completeStop a
        | .limit => u.limitFault a) := by
  have hstep : s.stepAxis a = (s.modAxis a Axis.pulseStep).finishBurst a := by
    unfold State.stepAxis
    simp only [hb, if_pos (And.intro h hn)]
  have hmod : s.modAxis a Axis.pulseStep = s.modAxis a (fun _ => (s.axis a).pulseStep) := rfl
  have hy : ((s.axis a).pulseStep).burst = some { b with issued := b.issued + 1 } := by
    unfold Axis.pulseStep
    dsimp only
    rw [hb]
    split
    · rfl
    · split <;> rfl
  rw [hstep, hmod]
  generalize (s.axis a).pulseStep = y at *
  unfold State.finishBurst
  simp only [axis_modAxis, hy, modAxis_modAxis]
  refine ⟨fun g => ?_, fun g k => ?_⟩
  · rw [if_neg]
    rintro ⟨g1, g2⟩
    rcases g with g | g
    · omega
    · exact g2 g
  · exact (if_pos ⟨by omega, by simp [k]⟩).trans (by cases b.ends <;> rfl)

end Sys2Proof.Machine
end

