-- ==== Sys2Proof/Laws/PerInstr.lean ====
section
/-! SUPPORT. One lemma per command: the form of its request frame (R196). -/

namespace Sys2Proof.Laws

/-- A request's code is one of the catalogue's 41, its payload is at most 66 bytes long, and of a length the code allows when
the command is well formed (R196). The rows that are no request have no frame. -/
def FrameForm.Statement (i : Instr) : Prop :=
  ∀ p c b, requestParts? i = some (p, c, b) →
    1 ≤ c ∧ c ≤ 41 ∧ (i.wellFormed = true → b.length ≤ 66 ∧ lengthAllowed c b = true)

theorem FrameForm.of_none {i : Instr} (h : requestParts? i = none) : FrameForm.Statement i := by
  intro p c b e
  rw [h] at e
  cases e

theorem FrameForm.of_parts {i : Instr} {p : PortId} {c : Nat} {b : List Byte} (h : requestParts? i = some (p, c, b))
    (hc : 1 ≤ c ∧ c ≤ 41) (hb : i.wellFormed = true → b.length ≤ 66 ∧ lengthAllowed c b = true) :
    FrameForm.Statement i := by
  intro p' c' b' e
  rw [h] at e
  cases e
  exact ⟨hc.1, hc.2, hb⟩

theorem FrameForm.getStatus (port : PortId) : FrameForm.Statement (.getStatus port) :=
  FrameForm.of_parts rfl (by decide) fun _ => ⟨Nat.le_of_ble_eq_true rfl, rfl⟩

theorem FrameForm.nextEvent (port : PortId) : FrameForm.Statement (.nextEvent port) :=
  FrameForm.of_parts rfl (by decide) fun _ => ⟨Nat.le_of_ble_eq_true rfl, rfl⟩

theorem FrameForm.setRouting (port : PortId) (mask : Byte) : FrameForm.Statement (.setRouting port mask) :=
  FrameForm.of_parts rfl (by decide) fun _ => ⟨Nat.le_of_ble_eq_true rfl, rfl⟩

theorem FrameForm.readClock (port : PortId) : FrameForm.Statement (.readClock port) :=
  FrameForm.of_parts rfl (by decide) fun _ => ⟨Nat.le_of_ble_eq_true rfl, rfl⟩

theorem FrameForm.readPlayer (port : PortId) (player : Byte) : FrameForm.Statement (.readPlayer port player) :=
  FrameForm.of_parts rfl (by decide) fun _ => ⟨Nat.le_of_ble_eq_true rfl, rfl⟩

theorem FrameForm.readQueueStart (port : PortId) (queue : Byte) :
    FrameForm.Statement (.readQueueStart port queue) :=
  FrameForm.of_parts rfl (by decide) fun _ => ⟨Nat.le_of_ble_eq_true rfl, rfl⟩

theorem FrameForm.readQueueStrike (port : PortId) : FrameForm.Statement (.readQueueStrike port) :=
  FrameForm.of_parts rfl (by decide) fun _ => ⟨Nat.le_of_ble_eq_true rfl, rfl⟩

theorem FrameForm.readBell (port : PortId) (bell : Byte) : FrameForm.Statement (.readBell port bell) :=
  FrameForm.of_parts rfl (by decide) fun _ => ⟨Nat.le_of_ble_eq_true rfl, rfl⟩

theorem FrameForm.readAxis (port : PortId) (axis : Byte) : FrameForm.Statement (.readAxis port axis) :=
  FrameForm.of_parts rfl (by decide) fun _ => ⟨Nat.le_of_ble_eq_true rfl, rfl⟩

theorem FrameForm.readEntryCalendar (port : PortId) (table index : Byte) :
    FrameForm.Statement (.readEntryCalendar port table index) :=
  FrameForm.of_parts rfl (by decide) fun _ => ⟨Nat.le_of_ble_eq_true rfl, rfl⟩

theorem FrameForm.readEntrySeason (port : PortId) (index : Byte) :
    FrameForm.Statement (.readEntrySeason port index) :=
  FrameForm.of_parts rfl (by decide) fun _ => ⟨Nat.le_of_ble_eq_true rfl, rfl⟩

theorem FrameForm.readEntryProfile (port : PortId) (index : Byte) :
    FrameForm.Statement (.readEntryProfile port index) :=
  FrameForm.of_parts rfl (by decide) fun _ => ⟨Nat.le_of_ble_eq_true rfl, rfl⟩

theorem FrameForm.readEntryInterlock (port : PortId) (index : Byte) :
    FrameForm.Statement (.readEntryInterlock port index) :=
  FrameForm.of_parts rfl (by decide) fun _ => ⟨Nat.le_of_ble_eq_true rfl, rfl⟩

theorem FrameForm.readEntryDirectory (port : PortId) (programme : Byte) :
    FrameForm.Statement (.readEntryDirectory port programme) :=
  FrameForm.of_parts rfl (by decide) fun _ => ⟨Nat.le_of_ble_eq_true rfl, rfl⟩

theorem FrameForm.readStorePage (port : PortId) (form : Byte) (page offset : Half) (length : Byte) :
    FrameForm.Statement (.readStorePage port form page offset length) :=
  FrameForm.of_parts rfl (by decide) fun h => ⟨Nat.le_of_ble_eq_true rfl, by
    simp only [Instr.wellFormed, pageFormOk, Bool.and_eq_true] at h
    simp [lengthAllowed, half2, Machine.le, Machine.byteAt, h]⟩

theorem FrameForm.readStoreStage (port : PortId) (form : Byte) (offset : Half) (length : Byte) :
    FrameForm.Statement (.readStoreStage port form offset length) :=
  FrameForm.of_parts rfl (by decide) fun h => ⟨Nat.le_of_ble_eq_true rfl, by
    simp only [Instr.wellFormed, stageFormOk, Bool.and_eq_true] at h
    simp [lengthAllowed, half2, Machine.le, Machine.byteAt, h]⟩

theorem FrameForm.readStoreMap (port : PortId) (first : Half) (count : Byte) :
    FrameForm.Statement (.readStoreMap port first count) :=
  FrameForm.of_parts rfl (by decide) fun _ => ⟨Nat.le_of_ble_eq_true rfl, rfl⟩

theorem FrameForm.readCounters (port : PortId) (group : Byte) :
    FrameForm.Statement (.readCounters port group) :=
  FrameForm.of_parts rfl (by decide) fun _ => ⟨Nat.le_of_ble_eq_true rfl, rfl⟩

theorem FrameForm.setClock (port : PortId) (time : WallPayload) : FrameForm.Statement (.setClock port time) :=
  FrameForm.of_parts rfl (by decide) fun _ => ⟨Nat.le_of_ble_eq_true rfl, rfl⟩

theorem FrameForm.setRestraint (port : PortId) (ceiling mute : Byte) :
    FrameForm.Statement (.setRestraint port ceiling mute) :=
  FrameForm.of_parts rfl (by decide) fun _ => ⟨Nat.le_of_ble_eq_true rfl, rfl⟩

theorem FrameForm.halt (port : PortId) : FrameForm.Statement (.halt port) :=
  FrameForm.of_parts rfl (by decide) fun _ => ⟨Nat.le_of_ble_eq_true rfl, rfl⟩

theorem FrameForm.resume (port : PortId) : FrameForm.Statement (.resume port) :=
  FrameForm.of_parts rfl (by decide) fun _ => ⟨Nat.le_of_ble_eq_true rfl, rfl⟩

theorem FrameForm.startShow (port : PortId) (programme priority : Byte) :
    FrameForm.Statement (.startShow port programme priority) :=
  FrameForm.of_parts rfl (by decide) fun _ => ⟨Nat.le_of_ble_eq_true rfl, rfl⟩

theorem FrameForm.stopShow (port : PortId) (player : Byte) : FrameForm.Statement (.stopShow port player) :=
  FrameForm.of_parts rfl (by decide) fun _ => ⟨Nat.le_of_ble_eq_true rfl, rfl⟩

theorem FrameForm.erasePage (port : PortId) (page : Half) : FrameForm.Statement (.erasePage port page) :=
  FrameForm.of_parts rfl (by decide) fun _ => ⟨Nat.le_of_ble_eq_true rfl, rfl⟩

theorem FrameForm.clearStage (port : PortId) : FrameForm.Statement (.clearStage port) :=
  FrameForm.of_parts rfl (by decide) fun _ => ⟨Nat.le_of_ble_eq_true rfl, rfl⟩

theorem FrameForm.loadStage (port : PortId) (offset : Half) (data : List Byte) :
    FrameForm.Statement (.loadStage port offset data) :=
  FrameForm.of_parts rfl (by decide) fun h => by
    simp only [Instr.wellFormed, stageDataOk, Bool.and_eq_true, decide_eq_true_eq] at h
    simp [lengthAllowed, half2, Machine.le]
    omega

theorem FrameForm.writePage (port : PortId) (page : Half) : FrameForm.Statement (.writePage port page) :=
  FrameForm.of_parts rfl (by decide) fun _ => ⟨Nat.le_of_ble_eq_true rfl, rfl⟩

theorem FrameForm.publish (port : PortId) (programme : Byte) (first : Half) :
    FrameForm.Statement (.publish port programme first) :=
  FrameForm.of_parts rfl (by decide) fun _ => ⟨Nat.le_of_ble_eq_true rfl, rfl⟩

theorem FrameForm.remove (port : PortId) (programme : Byte) : FrameForm.Statement (.remove port programme) :=
  FrameForm.of_parts rfl (by decide) fun _ => ⟨Nat.le_of_ble_eq_true rfl, rfl⟩

theorem FrameForm.writeCalendar (port : PortId) (index : Byte) (entry : CalendarPayload) :
    FrameForm.Statement (.writeCalendar port index entry) :=
  FrameForm.of_parts rfl (by decide) fun _ => ⟨Nat.le_of_ble_eq_true rfl, rfl⟩

theorem FrameForm.writeSeason (port : PortId) (index : Byte) (entry : SeasonPayload) :
    FrameForm.Statement (.writeSeason port index entry) :=
  FrameForm.of_parts rfl (by decide) fun _ => ⟨Nat.le_of_ble_eq_true rfl, rfl⟩

theorem FrameForm.writeProfile (port : PortId) (index : Byte) (profile : ProfilePayload) :
    FrameForm.Statement (.writeProfile port index profile) :=
  FrameForm.of_parts rfl (by decide) fun _ => ⟨Nat.le_of_ble_eq_true rfl, rfl⟩

theorem FrameForm.saveTables (port : PortId) : FrameForm.Statement (.saveTables port) :=
  FrameForm.of_parts rfl (by decide) fun _ => ⟨Nat.le_of_ble_eq_true rfl, rfl⟩

theorem FrameForm.enterManual (port : PortId) : FrameForm.Statement (.enterManual port) :=
  FrameForm.of_parts rfl (by decide) fun _ => ⟨Nat.le_of_ble_eq_true rfl, rfl⟩

theorem FrameForm.leaveManual (port : PortId) : FrameForm.Statement (.leaveManual port) :=
  FrameForm.of_parts rfl (by decide) fun _ => ⟨Nat.le_of_ble_eq_true rfl, rfl⟩

theorem FrameForm.freeze (port : PortId) : FrameForm.Statement (.freeze port) :=
  FrameForm.of_parts rfl (by decide) fun _ => ⟨Nat.le_of_ble_eq_true rfl, rfl⟩

theorem FrameForm.thaw (port : PortId) : FrameForm.Statement (.thaw port) :=
  FrameForm.of_parts rfl (by decide) fun _ => ⟨Nat.le_of_ble_eq_true rfl, rfl⟩

theorem FrameForm.jog (port : PortId) (axis form : Byte) (target : Half) (profile : Byte) :
    FrameForm.Statement (.jog port axis form target profile) :=
  FrameForm.of_parts rfl (by decide) fun _ => ⟨Nat.le_of_ble_eq_true rfl, rfl⟩

theorem FrameForm.stopAxis (port : PortId) (axis kind : Byte) :
    FrameForm.Statement (.stopAxis port axis kind) :=
  FrameForm.of_parts rfl (by decide) fun _ => ⟨Nat.le_of_ble_eq_true rfl, rfl⟩

theorem FrameForm.homeAxis (port : PortId) (axis : Byte) : FrameForm.Statement (.homeAxis port axis) :=
  FrameForm.of_parts rfl (by decide) fun _ => ⟨Nat.le_of_ble_eq_true rfl, rfl⟩

theorem FrameForm.testStrike (port : PortId) (bell velocity : Byte) :
    FrameForm.Statement (.testStrike port bell velocity) :=
  FrameForm.of_parts rfl (by decide) fun _ => ⟨Nat.le_of_ble_eq_true rfl, rfl⟩

theorem FrameForm.writeBell (port : PortId) (bell : Byte) (config : BellPayload) :
    FrameForm.Statement (.writeBell port bell config) :=
  FrameForm.of_parts rfl (by decide) fun _ => ⟨Nat.le_of_ble_eq_true rfl, rfl⟩

theorem FrameForm.writeAxis (port : PortId) (axis : Byte) (config : AxisPayload) :
    FrameForm.Statement (.writeAxis port axis config) :=
  FrameForm.of_parts rfl (by decide) fun _ => ⟨Nat.le_of_ble_eq_true rfl, rfl⟩

theorem FrameForm.writeInterlock (port : PortId) (index : Byte) (entry : InterlockPayload) :
    FrameForm.Statement (.writeInterlock port index entry) :=
  FrameForm.of_parts rfl (by decide) fun _ => ⟨Nat.le_of_ble_eq_true rfl, rfl⟩

theorem FrameForm.clearFaultBell (port : PortId) (kind number : Byte) :
    FrameForm.Statement (.clearFaultBell port kind number) :=
  FrameForm.of_parts rfl (by decide) fun _ => ⟨Nat.le_of_ble_eq_true rfl, rfl⟩

theorem FrameForm.clearFaultAxis (port : PortId) (number : Byte) :
    FrameForm.Statement (.clearFaultAxis port number) :=
  FrameForm.of_parts rfl (by decide) fun _ => ⟨Nat.le_of_ble_eq_true rfl, rfl⟩

theorem FrameForm.writeSetup (port : PortId) (setup : SetupPayload) :
    FrameForm.Statement (.writeSetup port setup) :=
  FrameForm.of_parts rfl (by decide) fun _ => ⟨Nat.le_of_ble_eq_true rfl, rfl⟩

theorem FrameForm.resetPart (port : PortId) : FrameForm.Statement (.resetPart port) :=
  FrameForm.of_parts rfl (by decide) fun _ => ⟨Nat.le_of_ble_eq_true rfl, rfl⟩

theorem FrameForm.badFrame (port : PortId) (frame : List Byte) : FrameForm.Statement (.badFrame port frame) :=
  FrameForm.of_none rfl

theorem FrameForm.overrun (port : PortId) : FrameForm.Statement (.overrun port) :=
  FrameForm.of_none rfl

theorem FrameForm.clockHold (port : PortId) : FrameForm.Statement (.clockHold port) :=
  FrameForm.of_none rfl

theorem FrameForm.clockHoldLimit (port : PortId) : FrameForm.Statement (.clockHoldLimit port) :=
  FrameForm.of_none rfl

theorem FrameForm.mainReset (cause : ResetCause) : FrameForm.Statement (.mainReset cause) :=
  FrameForm.of_none rfl

theorem FrameForm.backupReset : FrameForm.Statement .backupReset :=
  FrameForm.of_none rfl

theorem FrameForm.stabilisationEnd : FrameForm.Statement .stabilisationEnd :=
  FrameForm.of_none rfl

theorem FrameForm.blankTestComplete : FrameForm.Statement .blankTestComplete :=
  FrameForm.of_none rfl

theorem FrameForm.showTick : FrameForm.Statement .showTick :=
  FrameForm.of_none rfl

theorem FrameForm.motionTick (rail : BitVec 9) : FrameForm.Statement (.motionTick rail) :=
  FrameForm.of_none rfl

theorem FrameForm.minuteBoundary : FrameForm.Statement .minuteBoundary :=
  FrameForm.of_none rfl

theorem FrameForm.slewPeriodEnd : FrameForm.Statement .slewPeriodEnd :=
  FrameForm.of_none rfl

theorem FrameForm.centuryRollover : FrameForm.Statement .centuryRollover :=
  FrameForm.of_none rfl

theorem FrameForm.startExpired : FrameForm.Statement .startExpired :=
  FrameForm.of_none rfl

theorem FrameForm.admissionAttempt : FrameForm.Statement .admissionAttempt :=
  FrameForm.of_none rfl

theorem FrameForm.slotWaitEnd (player : PlayerId) : FrameForm.Statement (.slotWaitEnd player) :=
  FrameForm.of_none rfl

theorem FrameForm.awaitEnd (player : PlayerId) : FrameForm.Statement (.awaitEnd player) :=
  FrameForm.of_none rfl

theorem FrameForm.waitAxisEnd (player : PlayerId) : FrameForm.Statement (.waitAxisEnd player) :=
  FrameForm.of_none rfl

theorem FrameForm.waitTimeout (player : PlayerId) : FrameForm.Statement (.waitTimeout player) :=
  FrameForm.of_none rfl

theorem FrameForm.playerRelease (player : PlayerId) : FrameForm.Statement (.playerRelease player) :=
  FrameForm.of_none rfl

theorem FrameForm.storeWaitEnd (player : PlayerId) : FrameForm.Statement (.storeWaitEnd player) :=
  FrameForm.of_none rfl

theorem FrameForm.readGrant : FrameForm.Statement .readGrant :=
  FrameForm.of_none rfl

theorem FrameForm.readComplete : FrameForm.Statement .readComplete :=
  FrameForm.of_none rfl

theorem FrameForm.erasePhaseEnd : FrameForm.Statement .erasePhaseEnd :=
  FrameForm.of_none rfl

theorem FrameForm.programPhaseEnd : FrameForm.Statement .programPhaseEnd :=
  FrameForm.of_none rfl

theorem FrameForm.rollIssue (slot : RollId) : FrameForm.Statement (.rollIssue slot) :=
  FrameForm.of_none rfl

theorem FrameForm.strikeDue : FrameForm.Statement .strikeDue :=
  FrameForm.of_none rfl

theorem FrameForm.lateRemoval : FrameForm.Statement .lateRemoval :=
  FrameForm.of_none rfl

theorem FrameForm.slotGrant : FrameForm.Statement .slotGrant :=
  FrameForm.of_none rfl

theorem FrameForm.driveEnd (bell : BellId) : FrameForm.Statement (.driveEnd bell) :=
  FrameForm.of_none rfl

theorem FrameForm.contactCapture (bell : BellId) (level : Level) :
    FrameForm.Statement (.contactCapture bell level) :=
  FrameForm.of_none rfl

theorem FrameForm.miss (bell : BellId) : FrameForm.Statement (.miss bell) :=
  FrameForm.of_none rfl

theorem FrameForm.hammerRest (bell : BellId) : FrameForm.Statement (.hammerRest bell) :=
  FrameForm.of_none rfl

theorem FrameForm.moveDue (axis : AxisId) : FrameForm.Statement (.moveDue axis) :=
  FrameForm.of_none rfl

theorem FrameForm.moveStart (axis : AxisId) : FrameForm.Statement (.moveStart axis) :=
  FrameForm.of_none rfl

theorem FrameForm.interlockTimeout (axis : AxisId) : FrameForm.Statement (.interlockTimeout axis) :=
  FrameForm.of_none rfl

theorem FrameForm.switchEdge (axis : AxisId) (level : Level) : FrameForm.Statement (.switchEdge axis level) :=
  FrameForm.of_none rfl

theorem FrameForm.homeNotFound (axis : AxisId) : FrameForm.Statement (.homeNotFound axis) :=
  FrameForm.of_none rfl

theorem FrameForm.haltInput (asserted : Bool) : FrameForm.Statement (.haltInput asserted) :=
  FrameForm.of_none rfl

theorem FrameForm.freezeExpired : FrameForm.Statement .freezeExpired :=
  FrameForm.of_none rfl

theorem FrameForm.mainPowerLoss : FrameForm.Statement .mainPowerLoss :=
  FrameForm.of_none rfl

theorem FrameForm.resetInputDeasserted : FrameForm.Statement .resetInputDeasserted :=
  FrameForm.of_none rfl

end Sys2Proof.Laws
end

