-- ==== Sys2Proof/Laws/Readout.lean ====
section
/-! SUPPORT. What a coded number, flag, optional field or list of records leaves of a readout (R195): one lemma for each
shared operation, by which the bytes of a readout are read item by item. -/

namespace Sys2Proof.Machine

theorem length_le (k n : Nat) : (le k n).length = k := by
  induction k generalizing n with
  | zero => rfl
  | succ k ih => simp [le, ih]

theorem length_num (k n : Nat) : (num k n).length = k := by unfold num; split <;> exact length_le _ _

theorem length_twos (k : Nat) (z : Int) : (twos k z).length = k := by
  unfold twos twosLow; split <;> exact length_le _ _

/-- A sum of digits from the second on. -/
theorem sum_digits_succ (f : Nat → Nat) (k : Nat) :
    ((List.range (k + 1)).map fun j => f j * 256 ^ j).sum =
      f 0 + 256 * ((List.range k).map fun j => f (j + 1) * 256 ^ j).sum := by
  induction k with
  | zero => simp
  | succ k ih =>
    rw [List.range_succ, List.map_append, List.sum_append, ih, List.range_succ (n := k), List.map_append, List.sum_append]
    simp only [List.map_cons, List.map_nil, List.sum_cons, List.sum_nil, Nat.add_zero, Nat.mul_add, Nat.add_assoc]
    congr 2
    rw [Nat.pow_succ, ← Nat.mul_assoc, Nat.mul_comm]

theorem le_holds (k n : Nat) (bs : List Byte) (h : n < 256 ^ k) : Holds (le k n ++ bs) 0 k n := by
  intro _
  induction k generalizing n with
  | zero => simp at h; simp [h]
  | succ k ih =>
    rw [sum_digits_succ (fun j => byteIn (le (k + 1) n ++ bs) (0 + j))]
    have small : n / 256 < 256 ^ k := by rw [Nat.div_lt_iff_lt_mul (by decide)]; rwa [Nat.pow_succ] at h
    have rest : ∀ j, byteIn (le (k + 1) n ++ bs) (0 + (j + 1)) = byteIn (le k (n / 256) ++ bs) (0 + j) := by
      intro j; simp [le, byteIn]
    simp only [rest]
    rw [ih (n / 256) small small]
    simp [le, byteIn]; omega

/-- A number is read as itself; one too wide for its bytes as any. -/
theorem reads_num (w v : Nat) (bs : List Byte) (is : List Item) :
    reads (num w v ++ bs) (.num w v :: is) = reads bs is := by
  have heads : Item.heads (.num w v) (num w v ++ bs) = true := by
    simp only [Item.heads, decide_eq_true_eq]
    intro h
    have := le_holds w v bs h h
    simpa [num, h] using this
  simp only [reads, Item.width, heads]
  rw [List.drop_left' (length_num w v)]
  simp [length_num]

theorem reads_twosLow (w : Nat) (z : Int) (bs : List Byte) (is : List Item) :
    reads (twosLow w z ++ bs) (.num w (z % ((256 ^ w : Nat) : Int)).toNat :: is) = reads bs is := by
  have pos : (0 : Int) < ((256 ^ w : Nat) : Int) := by exact_mod_cast Nat.pow_pos (by decide)
  have lt : (z % ((256 ^ w : Nat) : Int)).toNat < 256 ^ w := by
    have h1 := Int.emod_lt_of_pos z pos
    have h2 := Int.emod_nonneg z (Int.ne_of_gt pos)
    omega
  have := reads_num w (z % ((256 ^ w : Nat) : Int)).toNat bs is
  rwa [num, if_pos lt] at this

/-- A signed number is read as itself; one too wide for its bytes as any. -/
theorem reads_twos (w : Nat) (z : Int) (bs : List Byte) (is : List Item) :
    reads (twos w z ++ bs) (.signed w z :: is) = reads bs is := by
  have heads : Item.heads (.signed w z) (twos w z ++ bs) = true := by
    simp only [Item.heads, decide_eq_true_eq]
    intro h1 h2 h3
    rw [show twos w z = twosLow w z by rw [twos, if_pos ⟨h1, h2⟩]]
    exact le_holds w _ bs h3 h3
  simp only [reads, Item.width, heads]
  rw [List.drop_left' (length_twos w z)]
  simp [length_twos]

theorem num_one_byte (b : Byte) : num 1 b.toNat = [b] := by
  have : b.toNat < 256 := b.isLt
  simp [num, le, this, Nat.mod_eq_of_lt this]

theorem reads_byte (b : Byte) (bs : List Byte) (is : List Item) :
    reads (b :: bs) (.num 1 b.toNat :: is) = reads bs is := by
  have := reads_num 1 b.toNat bs is
  rwa [num_one_byte] at this

theorem reads_flag (b : Bool) (bs : List Byte) (is : List Item) : reads (flag b ++ bs) (.yes b :: is) = reads bs is := by
  cases b
  · exact reads_byte 0#8 bs is
  · exact reads_byte 1#8 bs is

/-- 0xFF bytes are an absent field. -/
theorem reads_absent (w : Nat) (bs : List Byte) (is : List Item) :
    reads (List.replicate w 0xFF#8 ++ bs) (.absent w :: is) = reads bs is := by
  have digits : ∀ w : Nat, List.replicate w 0xFF#8 = le w (256 ^ w - 1) := by
    intro w
    induction w with
    | zero => rfl
    | succ w ih =>
      have pos := Nat.pow_pos (n := w) (show 0 < 256 by decide)
      have h1 : (256 ^ (w + 1) - 1) % 256 = 255 := by rw [Nat.pow_succ]; omega
      have h2 : (256 ^ (w + 1) - 1) / 256 = 256 ^ w - 1 := by rw [Nat.pow_succ]; omega
      simp only [List.replicate_succ, le, h1, h2, ih]
  have lt : 256 ^ w - 1 < 256 ^ w := Nat.sub_lt (Nat.pow_pos (by decide)) (by decide)
  have := reads_num w (256 ^ w - 1) bs is
  rwa [num, if_pos lt, ← digits] at this

/-- An optional field, whose bytes are those of its items when it is present. -/
theorem reads_opt {α : Type} (n : Nat) (f : α → List Byte) (g : α → List Item) (x : Option α) (bs : List Byte)
    (is : List Item) (h : ∀ a bs is, reads (f a ++ bs) (g a ++ is) = reads bs is) :
    reads (opt n f x ++ bs) (optionally n (x.map g) ++ is) = reads bs is := by
  cases x with
  | none =>
    have := reads_byte 0#8 (List.replicate n 0xFF#8 ++ bs) (.absent n :: is)
    simpa [opt, optionally, reads_absent] using this.trans (reads_absent n bs is)
  | some a =>
    have := reads_byte 1#8 (f a ++ bs) (g a ++ is)
    simpa [opt, optionally] using this.trans (h a bs is)

/-- Records one behind another. -/
theorem reads_flatMap {α : Type} (f : α → List Byte) (g : α → List Item) (l : List α) (bs : List Byte) (is : List Item)
    (h : ∀ a bs is, reads (f a ++ bs) (g a ++ is) = reads bs is) :
    reads (l.flatMap f ++ bs) (l.flatMap g ++ is) = reads bs is := by
  induction l with
  | nil => rfl
  | cons a l ih => simp only [List.flatMap_cons, List.append_assoc, h, ih]

end Sys2Proof.Machine
end

