-- ==== Sys2Proof/Tests/Slice0.lean ====
section
/-! SUPPORT. Small tests by hand calculation from the spec: the well-formedness smoke, sample frames, single events, and for
each statement with hypotheses a theorem that names a state and operands that meet them, clause by clause. -/

set_option maxRecDepth 20000

namespace Sys2Proof.Tests

open Sys2Proof.Machine

/-! ### States -/

/-- A part at work: READY, in AUTO, the clock VALID at 2000-01-01 00:01:00.000, 2 s of stage and hammer time, bells 0 and 1
in service, axes 0 and 1 homed and IDLE at 0, four FREE drive slots. -/
def demo : State :=
  { State.reset with
    time := { Time.initial with osc := .running, stageTime := 200000, hammerTime := 200000 }
    backup := { Backup.initial with validity := .valid, wallMs := 60000, lossToReport := false }
    store := { Store.initial Nvm.blank with ready := true, load := .done, map := Vector.replicate 504 .free }
    hammer := { HammerDrive.initial with slots := [none, none, none, none], outputsOn := true }
    strikes := { Strikes.initial with
      bells := ((Vector.replicate 24 Bell.blank).set 0 ring).set 1 ring }
    axes := { Axes.initial with axes := ((Vector.replicate 8 Axis.initial).set 0 figure).set 1 figure }
    ports := #v[{ Port.initial 0x30 0x63#8 with present := true }, { Port.initial 0x31 0x10#8 with present := true },
      { Port.initial 0x32 0xCC#8 with present := true }] }
where
  ring : Bell :=
    { Bell.blank with state := .inService, driveMin := 100, driveMax := 400, recover := 100, flightInit := 500,
                      flight := 500, velocityCap := 127 }
  figure : Axis :=
    { Axis.initial with
      config := { AxisConfig.blank with enabled := true, softLow := -1000, softHigh := 1000, homeSpeed := 100,
                                        searchTravel := 3000, slipTolerance := 5 }
      state := .idle, positionValid := true }

/-- The part in MANUAL, as the technician has it. -/
def manual : State := demo.modStage fun g => { g with mode := .manual }

/-- The part in HALTED. -/
def halted : State := demo.modStage fun g => { g with mode := .halted }

/-- The part with programme 1 live on page 8, a script of two cues that needs axis 0. -/
def shown : State :=
  (demo.modDir 0 fun _ => { live := some version, retiring := none }).setPage 8 .live
where
  version : Version :=
    { version := 3, firstPage := 8, pageCount := 1, cueCount := 2, axisMask := 1#8, priority := 4, latestStart := 60,
      references := 0 }

/-- A start of programme 1 asked for now. -/
def start : StartEntry :=
  { programme := 0, priority := 4, source := .venue, stamp := none, arrival := 200000, expiry := 6200000 }

/-- Player 0 plays programme 1 since 1 s of stage time, with a claim on axis 0 and cues in its FIFO. -/
def playing (st : PlayerState) (q : List FifoCue) : State :=
  ((((shown.modDir 0 fun d => { d with live := some { shown.version with references := 1 } }).modPlayer 0 fun _ =>
    { Player.initial with state := st, programme := 1, version := 3, priority := 4, source := 65, admission := 1,
                          start := 100000, headDue := 900, showTime := 990 }).modChannel 0
    fun _ => { Channel.initial with state := .atEnd, admission := 1, firstPage := 8, pageCount := 1, cueCount := 2,
                                    next := 2, fifo := q }).modAxis 0 fun x => { x with claim := some 0 })

/-- A strike of bell 0 queued for a launch time. -/
def strike (launch : Nat) (owner : Option PlayerId) : StrikeEntry :=
  { bell := 0, velocity := 100, drive := 300, flight := 500, sound := launch + 800, launch := launch,
    latest := launch + 5000, guardEnd := launch + 900, recover := 100, owner := owner, slot := none, number := 1 }

/-- A part with strikes queued, one enqueued so far for each. -/
def withStrikes (s : State) (q : List StrikeEntry) : State :=
  s.modStrikes fun k =>
    { k with queue := q, enqueued := q.length, counters := { k.counters with enqueued := q.length } }

/-- A part whose hammer 0 stands in a state. -/
def withHammer (h : HammerState) : State := demo.modHammer 0 fun x => { x with state := h }

/-- A part whose axis 0 is changed. -/
def withAxis (s : State) (f : Axis → Axis) : State := s.modAxis 0 f

/-- A move of axis 0 to 200, due at once. -/
def move (owner : MoveOwner) : PendingMove :=
  { target := 200, clamped := false, profile := 0, due := 200000, owner := owner, held := none }

/-- Axis 1 may leave 0 to 50 only while axis 0 stands in 0 to 50. -/
def guarded (s : State) : State :=
  s.modAxes fun x => { x with interlocks := x.interlocks.set 2 entry }
where
  entry : Interlock :=
    { enabled := true, guarded := 1, safeLow := 0, safeHigh := 50, condition := 0, windowLow := 0, windowHigh := 50 }

/-- A part with a store operation in progress. -/
def working (b : OpBody) (a : ArrayActivity) : State :=
  demo.modStore fun x => { x with op := some { port := .programme, body := b }, array := a }

/-- A part whose venue port is changed. -/
def venue (s : State) (f : Port → Port) : State := s.modPort .venue f

/-! ### Well-formedness -/

theorem test_smoke_queueByteOk : (Instr.readQueueStart .venue 1#8).wellFormed = false := by decide
theorem test_smoke_tableByteOk : (Instr.readEntryCalendar .venue 4#8 0#8).wellFormed = false := by decide
theorem test_smoke_pageFormOk : (Instr.readStorePage .venue 2#8 0#16 0#16 1#8).wellFormed = false := by decide
theorem test_smoke_stageFormOk : (Instr.readStoreStage .venue 0#8 0#16 1#8).wellFormed = false := by decide
theorem test_smoke_stageDataOk : (Instr.loadStage .programme 0#16 []).wellFormed = false := by decide
theorem test_smoke_stageDataOk_long : (Instr.loadStage .programme 0#16 (List.replicate 65 0#8)).wellFormed = false := by
  decide
theorem test_smoke_faultKindOk : (Instr.clearFaultBell .service 1#8 0#8).wellFormed = false := by decide
theorem test_smoke_malformed : (Instr.badFrame .venue [1#8, 0#8]).wellFormed = false := by decide
theorem test_smoke_malformed_empty : (Instr.badFrame .venue []).wellFormed = false := by decide

/-! ### Frames (R196) and operations -/

/-- SET_RESTRAINT is code 13 with a payload of two bytes. -/
theorem test_frame_setRestraint :
    requestOfFrame? .venue [13#8, 2#8, 100#8, 1#8] = some (.setRestraint .venue 100#8 1#8) := by decide

/-- A length byte that does not match the bytes received is no frame. -/
theorem test_frame_length : requestOfFrame? .venue [13#8, 2#8, 100#8] = none := by decide

/-- 2000-02-29 is a Tuesday (R7). -/
theorem test_weekday : weekdayOfDay (dayOfDate { year := 2000, month := 2, day := 29 }) = 1 := by decide

/-- The last day of 2099 is day 36,524 (R7, R24). -/
theorem test_last_day : dateOfDay 36524 = { year := 2099, month := 12, day := 31 } := by decide

/-- Bell 5 of the worked computation of spec/05: velocity 100 at a supply of 228 drives for 531. -/
theorem test_drive_bell5 :
    let b := { demo.ring with driveMin := 150, driveMax := 600, recover := 2000, flight := 420 }
    effectiveVelocity (cueVelocity 100) 127 127 = 100 ∧ nominalDrive b 100 = 504 ∧
      correctedDrive 504 (supplyUsed 228) = 531 ∧ clampDrive b 531 = 531 := by decide

/-- The bell at the limit of the same computation: a supply of 190 and a ceiling of 2000. -/
theorem test_drive_limit :
    let b := { demo.ring with driveMin := 300, driveMax := 1800 }
    nominalDrive b 127 = 1800 ∧ correctedDrive 1800 (supplyUsed 190) = 2160 ∧ clampDrive b 2160 = 2000 := by decide

/-- The estimate of the worked computation of spec/06, strike after strike; the floor goes toward minus infinity. -/
theorem test_learn : learnFlight 420 452 = 424 ∧ learnFlight 424 452 = 428 ∧ learnFlight 428 452 = 431 ∧
    learnFlight 431 396 = 427 ∧ learnFlight 427 427 = 427 ∧ learnFlight 420 396 = 417 := by decide

/-- Ticks 4, 5 and 10 of the approach in spec/07: decelerate, accelerate, arrive. -/
theorem test_approach :
    let x := { demo.figure with state := .moving, target := 200, position := 195, velocity := 1000,
                                profile := { maxSpeed := 1000, acceleration := 100000, deceleration := 100000 } }
    let y := x.motionArith
    let z := { y with velocity := 600, stepAccumulator := 900, position := 199 }.motionArith
    (y.velocity, y.stepAccumulator, y.motionArith.velocity, y.motionArith.stepAccumulator) = (900, 900, 1000, 900) ∧
      (z.velocity, z.burst.map (·.ends)) = (500, some .arrive) := by decide

/-- The seasons of the worked sequence of spec/02: 20 November, 20 December, 6 January, 7 January, 1 March. -/
theorem test_seasons :
    let e := { SeasonEntry.blank with enabled := true }
    let t := (((Vector.replicate 16 SeasonEntry.blank).set 0 { e with
      startMonth := 12, startDay := 1, endMonth := 1, endDay := 6, seasonId := 2, rank := 5 }).set 1 { e with
      startMonth := 11, startDay := 15, endMonth := 2, endDay := 28, seasonId := 1, rank := 2 }).set 2 { e with
      startMonth := 12, startDay := 20, endMonth := 1, endDay := 3, seasonId := 3, rank := 5 }
    [(11, 20), (12, 20), (1, 6), (1, 7), (3, 1)].map (fun d => seasonOfDate t { year := 2026, month := d.1, day := d.2 }) =
      [1, 2, 2, 1, 0] := by decide

/-- A record of kind STRIKE: bell 5 at velocity 90, delta 300 (R197). -/
theorem test_record : recordOf [1#8, 44#8, 1#8, 5#8, 90#8, 0#8, 0#8, 0#8] = .play 300 (.strike 5 90) := by decide

/-- A page programmed with 0xFF in every byte is not blank until it is erased (R180). -/
theorem test_written_page :
    (Nvm.blank.programPage 8 [0xFF#8]).isBlank 8 = false ∧ ((Nvm.blank.programPage 8 [0xFF#8]).erasePage 8).isBlank 8 = true := by
  decide

/-! ### Witnesses: the machine -/

/-- The oscillator stabilises, its interval over. -/
def waking : State := demo.modTime fun t => { t with osc := .stabilising, stabElapsed := 1600 }

theorem witness_StepTakesFrontCommand :
    ({ demo with pending := [.readClock .venue] } : State).pending = .readClock .venue :: [] := rfl

theorem witness_StepOnEmptyQueue :
    demo.pending = [] ∧ nextDue demo = none ∧ waking.pending = [] ∧ nextDue waking = some .stabilisationEnd := by decide

theorem witness_TickRunsTheTimebase :
    demo.running = true ∧ demo.time.hammerTime < Config.maxStage ∧ demo.time.stageTime < Config.maxStage ∧
      demo.time.frozen = false ∧ waking.running = false := by decide

/-- A part with a start, a strike, an event and a FIFO in hand, a request waiting. -/
def busy : State :=
  { (withStrikes ((playing .running [{ delta := 0, cue := .mark 5 }]).modShows fun b => { b with queue := [start] })
      [strike 300000 (some 0)]).report .modeChanged none (some 0) (some 4) with pending := [.getStatus .venue] }

theorem witness_EveryStepKeepsTheArrayCanonical : ArrayCanonical busy ∧ Safe busy := ⟨by decide, _, rfl⟩

theorem witness_EveryStepKeepsTheQueuesLawful : QueuesLawful busy ∧ Safe busy := ⟨by decide, _, rfl⟩

theorem witness_EveryStepKeepsTheFifoLaw : FifoLaw busy ∧ Safe busy := ⟨by decide, _, rfl⟩

theorem witness_EveryStepConservesStrikes : StrikesConserved busy ∧ Safe busy := ⟨by decide, _, rfl⟩

theorem witness_EveryStepKeepsTheHaltedLaw : HaltedLaw { halted with pending := [.resume .venue] } ∧
    halted.stage.mode = .halted ∧ Safe { halted with pending := [.resume .venue] } := ⟨by decide, by decide, _, rfl⟩

/-- A hammer in its pulse on slot 2. -/
def pulsing : State :=
  { (withHammer (.driving 199700 300 2)).modHammerDrive (fun h => { h with slots := [none, none, some 0, none] }) with
    pending := [.driveEnd 0] }

theorem witness_EveryStepKeepsTheDriveSlotLaw :
    SlotLaw pulsing ∧ pulsing.driving 0 = true ∧ Safe pulsing ∧ Safe busy ∧ busy.driving 0 = false := by
  exact ⟨by decide, by decide, ⟨_, rfl⟩, ⟨_, rfl⟩, by decide⟩

/-- A page erase in progress beside a published page 8. -/
def erasingBeside : State :=
  { shown with store := { shown.store with op := some { port := .programme, body := .erasePage 9 } },
               pending := [.getStatus .venue] }

theorem witness_EveryStepKeepsOwnedPages :
    PagesLaw erasingBeside ∧ erasingBeside.store.op.isSome = true ∧ erasingBeside.owned 8 = true ∧ Safe erasingBeside :=
  ⟨⟨fun _ => ⟨rfl, rfl⟩, fun op h => by cases h; decide⟩, by decide, by decide, _, rfl⟩

/-! ### Witnesses: ports -/

theorem witness_RequestFramesDecode :
    (Instr.jog .service 1#8 0#8 0xFFFF#16 2#8).wellFormed = true ∧
      requestParts? (.jog .service 1#8 0#8 0xFFFF#16 2#8) = some (.service, 32, [1#8, 0#8, 0xFF#8, 0xFF#8, 2#8]) := by
  decide

theorem witness_DecodedFramesEncode : requestOfFrame? .venue [8#8, 1#8, 7#8] = some (.readAxis .venue 7#8) ∧
    requestOfFrame? .venue [12#8, 9#8, 0xD0#8, 7#8, 1#8, 1#8, 0#8, 0#8, 0#8, 0#8, 0#8] = some (.setClock .venue
      { year := 2000#16, month := 1#8, day := 1#8, hour := 0#8, minute := 0#8, second := 0#8, millisecond := 0#16 }) := by
  decide

theorem witness_CommonChecksRefuseInOrder :
    let loading := demo.modStore fun x => { x with ready := false }
    requestParts? (.readClock .venue) = some (.venue, 4, []) ∧ Quiet loading ∧ Takes loading .venue ∧
      loading.store.ready = false ∧ requestParts? (.freeze .venue) = some (.venue, 30, []) ∧ Accepts demo .venue ∧
      permitted 30 .venue = false ∧ Quiet demo ∧ Takes demo .venue ∧ [99#8, 0#8] ≠ ([] : List Byte) ∧
      requestOfFrame? .venue [99#8, 0#8] = none := by decide

theorem witness_BusyAndAbsentPortsTakeNothing :
    let b := venue demo fun c => { c with state := .busy }
    Quiet b ∧ b.listens .venue = true ∧ (b.port .venue).state = .busy ∧ requestOfFrame? .venue [99#8, 0#8] = none ∧
      Quiet demo ∧ demo.listens .venue = true ∧ (demo.port .venue).state ≠ .busy ∧
      Quiet waking ∧ waking.listens .venue = false := by decide

/-- A read transaction held for `k` units of 10 µs. -/
def held (k : Option Nat) : State := venue demo fun c => { c with state := .busy, clockHold := true, hold := k }

theorem witness_ReadTransactionsAndHolds :
    Quiet demo ∧ demo.listens .venue = true ∧ ¬ ((demo.port .venue).state = .busy ∧ (demo.port .venue).clockHold = true) ∧
      Quiet (held none) ∧ (held none).listens .venue = true ∧ ((held none).port .venue).hold = none ∧
      Quiet (held (some 2500)) ∧ ((held (some 2500)).port .venue).hold = some 2500 ∧
      Quiet (held (some 2499)) ∧ ((held (some 2499)).port .venue).hold = some 2499 := by decide

theorem witness_ReadTransactionsAndHolds_bytes :
    (demo.port .venue).response.bytes[0]? = some 1#8 ∧ (demo.port .venue).response.bytes.length ≤ 4 := by decide

/-! ### Witnesses: requests of any port -/

theorem witness_StatusEventsAndRouting :
    Quiet demo ∧ Takes demo .venue ∧ Accepts demo .venue ∧ (demo.port .venue).queue = [] ∧
      Accepts busy .venue ∧ (busy.port .venue).queue ≠ [] := by decide

theorem witness_ClockQueueAndCounterReadouts : Accepts demo .service ∧ 7 < (8#8 : Byte).toNat ∧ (7#8 : Byte).toNat ≤ 7 := by
  decide

theorem witness_NumberedReadouts : Accepts demo .programme := by decide

theorem witness_StoreReadouts : Accepts demo .programme := by decide

/-! ### Witnesses: requests of the venue -/

/-- A time payload on 2000-01-01. -/
def clock (hour minute second : Byte) (ms : Half) : WallPayload :=
  { year := 2000#16, month := 1#8, day := 1#8, hour := hour, minute := minute, second := second, millisecond := ms }

theorem witness_SetClockSlews :
    Accepts demo .venue ∧ requestedWall? (clock 24#8 0#8 0#8 0#16) = none ∧
      requestedWall? (clock 0#8 1#8 2#8 0#16) = some 62000 ∧ demo.backup.validity = .valid ∧
      ((62000 : Int) - demo.backup.wallMs) = 2000 ∧ requestedWall? (clock 0#8 1#8 2#8 1#16) = some 62001 ∧
      2000 < ((62001 : Int) - demo.backup.wallMs).natAbs := by decide

/-- A SET_CLOCK to the reading itself, taken before a boundary of 2 ms at 59.998, leaves one ordinary millisecond, which changes
no minute (R8, R12). -/
theorem test_slew_by_nothing_keeps_the_minute :
    (let b := Backup.slewNothing { demo.backup with wallMs := 119998, boundaryAhead := 2, slewRemainder := 4 }
     b.wallMs = 119999 ∧ b.boundaryAhead = 0 ∧ b.slewRemainder = 0) ∧
      (Backup.slewNothing { demo.backup with wallMs := 119999, boundaryAhead := 2 }).boundaryAhead = 1 := by decide

theorem witness_ResetSetsTheTimebase : Quiet State.reset := by decide

theorem witness_SetClockSteps :
    Accepts demo .venue ∧ requestedWall? (clock 0#8 1#8 2#8 1#16) = some 62001 ∧
      2000 < ((62001 : Int) - demo.backup.wallMs).natAbs ∧
      (∀ k : CalId, (demo.calendar.entries[k]).enabled = false) := by decide

theorem witness_SetRestraintReplacesBoth :
    Accepts demo .venue ∧ 1 < (2#8 : Byte).toNat ∧ (0#8 : Byte).toNat = 0 ∧ (1#8 : Byte).toNat ≤ 1 ∧
      1 ≤ (128#8 : Byte).toNat := by decide

theorem witness_HaltEntersHalted :
    Accepts halted .venue ∧ halted.stage.mode = .halted ∧ Accepts demo .venue ∧ demo.stage.mode ≠ .halted ∧ Awake demo ∧
      Quiet waking ∧ waking.running = false := by decide

/-- Under way: a start queued, a freeze, axis 0 in motion as said with a move waiting behind it. -/
def underWay (st : AxisState) (v : Nat) : State :=
  (((withAxis demo fun x =>
    { x with state := st, velocity := v, slot := some (move .service), stop := some { kind := .controlled, cause := .abort }
             homing := some { phase := .search, travel := 0, origin := .automatic } }).modShows fun b =>
    { b with queue := [start] }).modTime fun t => { t with frozen := true, freezeStage := 200000 })

theorem witness_HaltEntersHalted_underWay :
    (∀ st ∈ [AxisState.moving, .stopping, .homing], Accepts (underWay st 500) .venue ∧ Awake (underWay st 0) ∧
      (underWay st 500).stage.mode ≠ .halted ∧ ((underWay st 500).axis 0).state = st) ∧
      ((underWay .stopping 5).axis 0).stop = some { kind := .controlled, cause := .abort } ∧
      ((underWay .moving 0).axis 0).velocity = 0 ∧ start ∈ (underWay .moving 0).shows.queue ∧
      ((demo.port .venue).routing.getLsbD EventKind.modeChanged.class.code = true) := by decide

theorem witness_ResumeReturnsToAuto :
    Accepts demo .venue ∧ demo.stage.mode ≠ .halted ∧ Accepts halted .venue ∧ halted.pins.haltIn = false ∧
      (∀ a : AxisId, (halted.axis a).slot = none) := by decide

theorem witness_StartShowQueuesTheStart :
    Accepts shown .venue ∧ (1#8 : Byte).toNat = ProgId.number 0 ∧ shown.stage.mode = .auto ∧
      shown.live? 0 = some shown.version ∧ shown.live? 1 = none ∧ shown.shows.queue.length < 8 ∧
      Accepts { shown with shows := { shown.shows with queue := List.replicate 8 start } } .venue ∧
      Accepts manual .service ∧ manual.stage.mode = .manual ∧ Accepts manual .venue ∧ manual.stage.mode ≠ .auto := by decide

theorem witness_StopShowAborts :
    Accepts demo .venue ∧ (2#8 : Byte).toNat = ((2 : PlayerId) : Nat) ∧ (demo.player 2).state = .idle ∧
      Accepts (withStrikes (playing .draining []) [strike 300000 (some 0)]) .venue ∧
      Accepts (playing .running [{ delta := 0, cue := .mark 5 }]) .service ∧
      ((playing .running [{ delta := 0, cue := .mark 5 }]).player 0).playing = true := by decide

/-! ### Witnesses: requests of the content station -/

/-- The part with the page map's pages 8 to 12 DIRTY, DRAFT, LIVE, RETIRING and FREE, and region 1 protected. -/
def pages : State :=
  ((((demo.setPage 8 .dirty).setPage 9 .draft).setPage 10 .live).setPage 11 .retiring).modStore fun x =>
    { x with setup := { x.setup with protection := 2#16 } }

theorem witness_PageRequestsAreChecked :
    Accepts pages .programme ∧ pages.store.op = none ∧ pages.store.setup.protection.getLsbD (32 / 32) = true ∧
      pages.store.setup.protection.getLsbD (8 / 32) = false ∧ pages.pageState 8 = some .dirty ∧
      pages.pageState 9 = some .draft ∧ pages.pageState 10 = some .live ∧ pages.pageState 511 = some .free ∧
      Accepts (working (.erasePage 8) (.erasing 800)) .programme ∧
      (working (.erasePage 8) (.erasing 800)).store.op ≠ none := by decide

theorem witness_StagingRequestsWriteTheBuffer :
    Accepts demo .programme ∧ demo.store.op = none ∧ (511#16 : Half).toNat + [7#8].length ≤ 512 ∧
      512 < (511#16 : Half).toNat + [7#8, 7#8].length ∧ Accepts (working (.writePage 8) (.programming 300)) .programme ∧
      (working (.writePage 8) (.programming 300)).store.op.any (fun op => op.body.kind == .writePage) = true := by decide

/-- Programme 1 with a version that still retires. -/
def retiring : State := shown.modDir 0 fun d => { d with retiring := some { shown.version with version := 2 } }

theorem witness_PublishIsTaken :
    Accepts demo .programme ∧ (64#8 : Byte).toNat = ProgId.number 63 ∧ demo.store.op = none ∧
      (demo.dirEntry 63).retiring = none ∧ Accepts retiring .programme ∧ (retiring.dirEntry 0).retiring ≠ none ∧
      retiring.store.op = none := by decide

/-- The first page of a script: its header (programme 1, version 7, latest start 60, priority 4) and one END. -/
def scriptPage (cues : Nat) : List Byte :=
  [1#8, 1#8, 7#8, 0#8, 60#8, 0#8, BitVec.ofNat 8 cues, 0#8, 4#8] ++ List.replicate 23 0x41#8 ++
    [8#8, 0#8, 0#8, 0#8, 0#8, 0#8, 0#8, 0#8]

/-- A part whose publish of programme 1 from page 30 has completed its first read. -/
def reading (s : State) (page : List Byte) : State :=
  (s.modStore fun x =>
    { x with op := some { port := .programme, body := .publish 0 30 (.validating none 0 0) },
             path := some { who := .store, left := 0, page := 0, offset := 0, length := 0 },
             nvm := x.nvm.programPage 30 page }).setPage 30 .draft

theorem witness_PublishIsTaken_reads :
    Awake (reading shown (scriptPage 1)) ∧
      (let h := headerOf ((reading shown (scriptPage 1)).store.nvm.bytes (512 * 30) 32) 30
       h.programme = ProgId.number 0 ∧ h.version.version = 7 ∧ h.version.priority = 4 ∧ h.version.latestStart = 60 ∧
         h.version.cueCount = 1 ∧ h.version.pageCount = 1 ∧
         checkCues (reading shown (scriptPage 1)).store.nvm h.version 1 0 0 = .ok 0) ∧
      ((reading shown (scriptPage 1)).dirEntry 0).retiring = none ∧
      (reading shown (scriptPage 1)).pageState 30 = some .draft ∧
      (headerOf ((reading shown (scriptPage 0)).store.nvm.bytes (512 * 30) 32) 30).version.cueCount = 0 ∧
      (let h := headerOf ((reading shown (scriptPage 2)).store.nvm.bytes (512 * 30) 32) 30
       checkCues (reading shown (scriptPage 2)).store.nvm h.version 2 0 0 = .error 0) ∧
      Awake (working (.publish 63 30 (.rewriting 7 [])) (.programming 0)) := by
  refine ⟨by decide, by refine ⟨?_, ?_, ?_, ?_, ?_, ?_, rfl⟩ <;> decide, by decide, by decide, by decide, rfl, by decide⟩

theorem witness_PublishIsTaken_later :
    (scriptPage 5).length = 40 ∧ min (0 + 64) (32 + 8 * 5) < 32 + 8 * 5 ∧
      (let s := (reading shown (scriptPage 1)).setPage 30 .dirty
       Awake s ∧ s.pageState 30 ≠ some .draft) ∧
      (let s := shown.modDir 0 fun d => { d with live := some { shown.version with version := 7 } }
       Awake (reading s (scriptPage 1)) ∧ ((reading s (scriptPage 1)).live? 0).any (·.version == 7) = true) := by decide

theorem witness_RemoveEmptiesTheEntry :
    Accepts shown .programme ∧ shown.store.op = none ∧ shown.live? 0 = some shown.version ∧ shown.live? 1 = none ∧
      (shown.dirEntry 0).retiring = none ∧ Accepts retiring .programme ∧ retiring.live? 0 ≠ none ∧
      Accepts (playing .running []) .programme ∧
      ((playing .running []).live? 0).any (fun v => decide (0 < v.references)) = true := by decide

theorem witness_RemoveEmptiesTheEntry_end : Awake (working (.remove 63 []) (.programming 0)) := by decide

/-- A daily entry, a summer season, a profile. -/
def daily : CalendarPayload :=
  { enabled := 1#8, programme := 1#8, kind := 0#8, hour := 23#8, minute := 59#8, hourlyMinute := 0#8, firstHour := 0#8,
    lastHour := 0#8, interval := 1#16, windowFirst := 0#16, windowLast := 0#16, weekdays := 127#8, seasons := 1#16,
    priority := 7#8, silent := 1#8 }
def summer : SeasonPayload :=
  { enabled := 1#8, startMonth := 6#8, startDay := 1#8, endMonth := 8#8, endDay := 31#8, seasonId := 1#8, rank := 0#8 }
def slow : ProfilePayload := { maxSpeed := 20000#16, acceleration := 10#32, deceleration := 100000#32 }

theorem witness_TableWritesReplaceEntries :
    Accepts demo .programme ∧ (daily.enabled.toNat ≤ 1 ∧ 1 ≤ daily.programme.toNat ∧ daily.programme.toNat ≤ 64 ∧
        daily.priority.toNat ≤ 7 ∧ daily.silent.toNat ≤ 1 ∧ daily.kind = 0#8 ∧ daily.hour.toNat ≤ 23 ∧
        daily.minute.toNat ≤ 59) ∧
      ¬ ({ daily with minute := 60#8 }.minute.toNat ≤ 59) ∧ (summer.enabled.toNat ≤ 1 ∧ 1 ≤ summer.startMonth.toNat ∧
        summer.startDay.toNat ≤ 30 ∧ summer.endMonth.toNat = 8 ∧ summer.endDay.toNat ≤ 31 ∧ 1 ≤ summer.startDay.toNat ∧
        1 ≤ summer.seasonId.toNat ∧ summer.seasonId.toNat ≤ 15 ∧ summer.rank.toNat ≤ 15) ∧
      ¬ ({ summer with endDay := 32#8 }.endDay.toNat ≤ 31) ∧ slow.maxSpeed.toNat = 20000 ∧
      slow.acceleration.toNat = 10 ∧ slow.deceleration.toNat = 100000 ∧ (63#8 : Byte).toNat = ((63 : CalId) : Nat) ∧
      (15#8 : Byte).toNat = ((15 : SeasonId) : Nat) := by decide

/-- A setup record in range. -/
def setup : SetupPayload :=
  { venueAddress := 0x30#8, programmeAddress := 0x31#8, serviceAddress := 0x32#8, venueHold := 0#8, programmeHold := 0#8,
    serviceHold := 0#8, driveSlots := 6#8, slipAllowance := 0#8, holdTimeout := 30#8, freezeLimit := 10#8,
    autoHome := 1#8, protection := 0#16 }

theorem witness_SavesBeginWithTheirImages :
    Accepts demo .programme ∧ demo.store.op = none ∧ Accepts manual .service ∧ manual.store.op = none ∧
      (∀ x ∈ [setup.venueAddress, setup.programmeAddress, setup.serviceAddress], 0x08 ≤ x.toNat ∧ x.toNat ≤ 0x77) ∧
      (∀ x ∈ [setup.venueHold, setup.programmeHold, setup.serviceHold, setup.autoHome], x.toNat ≤ 1) ∧
      setup.driveSlots.toNat = 6 ∧ setup.slipAllowance.toNat ≤ 30 ∧ 1 ≤ setup.holdTimeout.toNat ∧
      1 ≤ setup.freezeLimit.toNat ∧ setup.freezeLimit.toNat ≤ 60 ∧ ¬ ({ setup with driveSlots := 7#8 }.driveSlots.toNat ≤ 6) ∧
      Accepts (working (.erasePage 8) (.erasing 800)) .programme ∧ (∀ p : PlayerId, (manual.player p).state = .idle) ∧
      Accepts demo .service ∧ demo.stage.mode ≠ .manual ∧
      (let s := (playing .running []).modStage fun g => { g with mode := .manual }
       Accepts s .service ∧ s.stage.mode = .manual ∧ (s.player 0).state ≠ .idle) := by decide

theorem witness_SavesBeginWithTheirImages_ends :
    Awake (working (.saveTables [(7, [])]) (.programming 0)) ∧
      Awake (working (.saveTables [(6, []), (7, [])]) (.programming 0)) ∧
      Awake (working (.writeSetup []) (.programming 0)) ∧ demo.store.path = none := by decide

/-! ### Witnesses: requests of the technician -/

theorem witness_ManualModeIsEnteredAndLeft :
    Accepts halted .service ∧ halted.stage.mode = .halted ∧ Accepts manual .service ∧ manual.stage.mode = .manual ∧
      Accepts demo .service ∧ demo.stage.mode = .auto := by decide

/-- A FROZEN part with a frozen duration in milliseconds. -/
def frozen (ms : Nat) : State := demo.modTime fun t => { t with frozen := true, freezeStage := 200000, frozenMs := ms }

theorem witness_FreezeThawAndExpiry :
    Accepts halted .service ∧ Accepts (frozen 0) .service ∧ (frozen 0).stage.mode ≠ .halted ∧ Accepts demo .service ∧
      demo.time.frozen = false ∧ Awake (frozen 599999) ∧ Awake (frozen 600000) ∧
      (frozen 600000).store.setup.freezeLimit * 60000 = 600000 := by decide

theorem witness_JogPlacesAMove :
    Accepts demo .service ∧ demo.stage.mode ≠ .manual ∧ Accepts manual .service ∧ manual.stage.mode = .manual ∧
      (manual.axis 0).claim = none ∧ (manual.axis 7).state = .disabled ∧ (manual.axis 0).state = .idle ∧
      (manual.axis 0).slot = none ∧ manual.obstacle 0 200 = none ∧ (manual.axis 0).position ≠ 200 ∧
      Accepts (withAxis (guarded manual) fun x => { x with position := 20 }) .service ∧
      (withAxis (guarded manual) fun x => { x with position := 20 }).obstacle 0 200 = none ∧
      (guarded (manual.modAxis 1 fun x => { x with position := 90 })).obstacle 0 200 = some 2 ∧
      Accepts (withAxis manual fun x => { x with state := .moving, velocity := 50, target := 100 }) .service ∧
      Accepts (withAxis manual fun x => { x with claim := some 0 }) .service ∧
      Accepts (withAxis manual fun x => { x with state := .homing }) .service := by decide

theorem witness_JogPlacesAMove_atTarget :
    let s := withAxis manual fun x => { x with position := 200 }
    Accepts s .service ∧ (s.axis 0).state = .idle ∧ (s.axis 0).slot = none ∧ (s.axis 0).position = 200 ∧
      s.obstacle 0 200 = none := by decide

theorem witness_StopAxisStops :
    Accepts demo .service ∧ (0#8 : Byte).toNat = ((0 : AxisId) : Nat) ∧ (1#8 : Byte).toNat ≤ 1 ∧
      (demo.axis 0).slot = none ∧ (demo.axis 0).inMotion = false ∧
      Accepts (withAxis demo fun x => { x with state := .moving, velocity := 50 }) .service := by decide

theorem witness_HomeAxisBeginsHoming :
    Accepts manual .service ∧ manual.stage.mode = .manual ∧ (manual.axis 0).claim = none ∧ (manual.axis 0).state = .idle ∧
      (manual.axis 0).slot = none ∧ manual.homingObstacle 0 = none ∧ (guarded manual).homingObstacle 1 = none ∧
      Accepts (guarded (manual.modAxis 1 fun x => { x with position := 90 })) .service ∧
      (guarded (manual.modAxis 1 fun x => { x with position := 90 })).homingObstacle 0 = some 2 ∧
      (manual.axis 7).state = .disabled ∧
      Accepts (withAxis manual fun x => { x with state := .homing }) .service ∧
      Accepts (withAxis manual fun x => { x with slot := some { move .service with due := 300000 } }) .service := by decide

theorem witness_TestStrikeIsOffered :
    Accepts demo .service ∧ Accepts manual .service ∧ manual.stage.mode = .manual ∧ (manual.bell 0).state = .inService ∧
      (manual.bell 23).state ≠ .inService ∧ manual.backup.mute = false ∧
      guardedLaunch manual.time.stageTime (manual.readyTime 0) manual.store.setup.slipAllowance = some 200000 ∧
      manual.strikes.queue.length < 32 ∧
      (let s := manual.modBell 0 fun x => { x with guardEnd := some 201501 }
       Accepts s .service ∧ guardedLaunch s.time.stageTime (s.readyTime 0) s.store.setup.slipAllowance = none) ∧
      (let s := withStrikes manual (List.replicate 32 { strike 300000 none with bell := 1 })
       Accepts s .service ∧ 32 ≤ s.strikes.queue.length ∧
         (guardedLaunch s.time.stageTime (s.readyTime 0) s.store.setup.slipAllowance).isSome = true) := by decide

theorem witness_TestStrikeIsOffered_muted :
    let s := manual.modBackup fun b => { b with mute := true }
    Accepts s .service ∧ s.backup.mute = true ∧
      guardedLaunch s.time.stageTime (s.readyTime 0) s.store.setup.slipAllowance = some 200000 ∧
      (let g := s.modBell 0 fun x => { x with guardEnd := some 200900 }
       Accepts g .service ∧ guardedLaunch g.time.stageTime (g.readyTime 0) g.store.setup.slipAllowance = some 200900) := by
  decide

/-- A bell configuration in range. -/
def bellPayload : BellPayload :=
  { state := 0#8, driveMin := 20#16, driveMax := 2000#16, recover := 0#16, flightInit := 100#16, velocityCap := 127#8,
    outputPolarity := 1#8, contactPolarity := 0#8 }

theorem witness_BellServiceRequests :
    Accepts demo .service ∧ 23 < (24#8 : Byte).toNat ∧ (23#8 : Byte).toNat = ((23 : BellId) : Nat) ∧
      (demo.bell 23).state ≠ .faulted ∧ bellPayload.state = 0#8 ∧ bellPayload.driveMin.toNat = 20 ∧
      bellPayload.driveMax.toNat = 2000 ∧ bellPayload.recover.toNat ≤ 25000 ∧ bellPayload.flightInit.toNat = 100 ∧
      bellPayload.velocityCap.toNat = 127 ∧ bellPayload.outputPolarity.toNat ≤ 1 ∧ bellPayload.contactPolarity.toNat ≤ 1 ∧
      ¬ (20 ≤ { bellPayload with driveMin := 19#16 }.driveMin.toNat) ∧
      (∀ e ∈ demo.strikes.queue, e.bell ≠ 23) ∧ (demo.hammerOf 23).state = .rest ∧
      Accepts (withStrikes demo [strike 300000 none]) .service ∧
      Accepts (demo.modBell 0 fun x => { x with state := .faulted, misses := 3 }) .service := by decide

/-- An axis configuration in range, and an interlock entry. -/
def axisPayload : AxisPayload :=
  { enabled := 1#8, softLow := 0#16, softHigh := 1000#16, home := 0#16, homeDirection := 0#8, homeSpeed := 100#16,
    searchTravel := 2000#16, slipTolerance := 4#8, emergencyDeceleration := 1000#32, stepPolarity := 0#8,
    directionPolarity := 0#8, pinMode := 0#8, pullUp := 0#8, switchActive := 0#8 }
def interlockPayload : InterlockPayload :=
  { enabled := 1#8, guarded := 1#8, safeLow := 0#16, safeHigh := 50#16, condition := 0#8, windowLow := 0#16,
    windowHigh := 50#16 }

theorem witness_AxisServiceRequests :
    Accepts manual .service ∧ 7 < (8#8 : Byte).toNat ∧ (7#8 : Byte).toNat = ((7 : AxisId) : Nat) ∧
      (∀ x ∈ [axisPayload.enabled, axisPayload.homeDirection, axisPayload.stepPolarity, axisPayload.directionPolarity,
        axisPayload.pinMode, axisPayload.pullUp, axisPayload.switchActive], x.toNat ≤ 1) ∧
      axisPayload.softLow.toInt < axisPayload.softHigh.toInt ∧ axisPayload.softLow.toInt ≤ axisPayload.home.toInt ∧
      axisPayload.home.toInt ≤ axisPayload.softHigh.toInt ∧ axisPayload.homeSpeed.toNat = 100 ∧
      axisPayload.searchTravel.toNat = 2000 ∧ axisPayload.emergencyDeceleration.toNat = 1000 ∧
      ¬ ({ axisPayload with softLow := 1001#16 }.softLow.toInt < axisPayload.softHigh.toInt) ∧
      (manual.axis 0).claim = none ∧ (manual.axis 0).inMotion = false ∧ (manual.axis 0).slot = none ∧
      Accepts (withAxis manual fun x => { x with claim := some 0 }) .service ∧
      Accepts (withAxis manual fun x => { x with state := .moving }) .service ∧
      Accepts (withAxis manual fun x => { x with state := .faulted, fault := some .slip }) .service ∧
      interlockPayload.enabled.toNat ≤ 1 ∧ interlockPayload.guarded.toNat ≤ 7 ∧ interlockPayload.condition.toNat ≤ 7 ∧
      interlockPayload.guarded ≠ interlockPayload.condition ∧
      interlockPayload.safeLow.toInt ≤ interlockPayload.safeHigh.toInt ∧
      interlockPayload.windowLow.toInt ≤ interlockPayload.windowHigh.toInt ∧
      (15#8 : Byte).toNat = ((15 : InterlockId) : Nat) ∧
      (∀ a : AxisId, (manual.axis a).inMotion = false ∧ (manual.axis a).slot = none) := by decide

theorem witness_AxisServiceRequests_refused :
    ¬ ({ axisPayload with enabled := 2#8 }.enabled.toNat ≤ 1) ∧ ¬ ({ interlockPayload with enabled := 2#8 }.enabled.toNat ≤ 1) ∧
      15 < (16#8 : Byte).toNat ∧ Accepts manual .service ∧ (manual.axis 0).state ≠ .faulted := by decide

theorem witness_ResetsSetEverythingButTheBackupDomain : Quiet demo ∧ Accepts demo .service := by decide

/-! ### Witnesses: events of the timebase and of the shows -/

/-- LOADING tests a page. -/
def testing (p : Nat) : State :=
  demo.modStore fun x => { x with ready := false, load := .testing p, blankLeft := some 0 }

theorem witness_StabilisationAndBlankTests :
    Quiet waking ∧ waking.time.osc = .stabilising ∧ waking.pins.mainPower = true ∧ waking.pins.resetIn = false ∧
      1600 ≤ waking.time.stabElapsed ∧ Quiet (testing 8) ∧ (testing 8).running = true ∧
      (testing 8).pageState 9 ≠ some .live ∧ Quiet (testing 511) ∧
      (∀ k : CalId, ((testing 511).calendar.entries[k]).enabled = false) := by decide

/-- LOADING has read the last 64 bytes of a page. -/
def loaded (page : Nat) (cells : List Host.Cell) : State :=
  demo.modStore fun x =>
    { x with ready := false, load := .reading page (if page = 0 then 0 else 448), nvm := { x.nvm with cells := cells },
             path := some { who := .store, left := 0, page := 0, offset := 0, length := 0 } }

/-- The page check of a page whose other bytes are 0xFF: 65535 − 130050 mod 65536 = 0x03FD. -/
def sealed (page : Nat) : List Host.Cell := [(512 * page + 510, 0xFD#8), (512 * page + 511, 0x03#8)]

theorem witness_StabilisationAndBlankTests_loading :
    Quiet (loaded 0 []) ∧ (loaded 0 []).running = true ∧ (loaded 0 []).store.op = none ∧
      Quiet (loaded 7 (sealed 7)) ∧ (loaded 7 (sealed 7)).pageState 8 ≠ some .live ∧
      (∀ g : ProgId, (loaded 7 (sealed 7)).live? g = none) ∧ pagePasses (loaded 7 (sealed 7)).store.nvm 7 = true ∧
      pagePasses (loaded 2 (sealed 2)).store.nvm 2 = true ∧ pagePasses (loaded 1 []).store.nvm 1 = false ∧
      384 + 64 < 512 ∧ 512 ≤ 448 + 64 ∧
      ((loaded 0 [(12, 6#8), (13, 0xF9#8)]).store.nvm.byte 12).toNat + ((loaded 0 [(12, 6#8), (13, 0xF9#8)]).store.nvm.byte
        13).toNat = 255 := by decide

/-- A directory page with programme 33 live on page 8, sealed: 130050 − 12 · 255 + 80 gives the check 0x0FA1. -/
def directory : List Host.Cell :=
  [(1024, 1#8), (1025, 3#8), (1026, 0#8), (1027, 8#8), (1028, 0#8), (1029, 1#8), (1030, 2#8), (1031, 0#8), (1032, 1#8),
   (1033, 4#8), (1034, 60#8), (1035, 0#8), (1534, 0xA1#8), (1535, 0x0F#8)]

theorem test_load_directory : (match exec .readComplete (loaded 2 directory) with
    | .next t => t.live? 32 == some shown.version && t.store.load == .reading 3 0 && !t.store.dirFault
    | _ => false) = true := by decide

/-- A slew of `r` milliseconds whose period is over, or a boundary `k` milliseconds ahead. -/
def slewing (r : Int) (e : Nat) : State := demo.modBackup fun b => { b with slewRemainder := r, slewElapsed := e }
def crossing (ms k : Nat) : State := demo.modBackup fun b => { b with wallMs := ms, boundaryAhead := k }

theorem witness_ClockEventsMoveTheClock :
    Quiet (slewing 5 9999) ∧ Quiet (slewing (-5) 10000) ∧ (slewing (-5) 10000).backup.slewRemainder < 0 ∧
      Quiet (slewing 5 10000) ∧ 0 < (slewing 5 10000).backup.slewRemainder ∧
      Quiet (crossing 86399999 1) ∧ 0 < (crossing 86399999 1).backup.boundaryAhead ∧
      (crossing 86399999 1).running = true ∧ (crossing 86399999 1).store.ready = true ∧
      Quiet (crossing 3155759999999 1) ∧
      3155760000000 ≤ (crossing 3155759999999 1).backup.wallMs + (crossing 3155759999999 1).backup.boundaryAhead ∧
      Quiet { waking with backup := (crossing 119999 1).backup } := by decide

theorem witness_ClockEventsMoveTheClock_rollover :
    Quiet { waking with backup := (crossing 3155759999999 1).backup } ∧
      (let s := (crossing 3155759999999 1).modStore fun x => { x with ready := false, load := .testing 8, blankLeft := some 5 }
       Quiet s ∧ s.running = true ∧ s.store.ready = false) ∧
      (crossing 3155759999999 1).running = true ∧ (crossing 3155759999999 1).store.ready = true ∧
      (∀ k : CalId, ((crossing 3155759999999 1).calendar.entries[k]).enabled = false) := by decide

/-- A part at a tick. -/
def ticking (s : State) : State := s.modTime fun t => { t with showTickDue := true, motionTickDue := true }

theorem witness_ShowAndMotionTicks :
    Awake (ticking (playing .running [{ delta := 0, cue := .mark 5 }])) ∧
      (ticking (playing .running [{ delta := 0, cue := .mark 5 }])).time.showTickDue = true ∧
      Awake (ticking (playing .priming [{ delta := 0, cue := .mark 5 }])) ∧
      ((playing .priming []).channel 0).state = .atEnd ∧ ((playing .priming []).channel 0).read = .none ∧
      (ticking (playing .running [{ delta := 0, cue := .mark 5 }])).time.frozen = false ∧
      Awake (frozen 0) ∧ (frozen 0).time.showTickDue = false ∧ (frozen 0).time.motionTickDue = false ∧
      Awake (ticking (frozen 0)) ∧ (ticking (frozen 0)).time.motionTickDue = true ∧
      (ticking (frozen 0)).time.showTickDue = true ∧ (ticking (frozen 0)).time.frozen = true := by decide

/-- Player 0 with one cue at the head of its FIFO, due at a show time, at a show tick that makes its show time 1000. -/
def heading (c : Cue) (due : Nat) : State :=
  (ticking (playing .running [{ delta := 0, cue := c }])).modPlayer 0 fun x => { x with headDue := due }

theorem witness_ShowAndMotionTicks_dispatch :
    Awake (heading (.strike 0 90) 1100) ∧ (heading (.strike 0 90) 1100).time.showTickDue = true ∧
      (heading (.strike 0 90) 1100).time.frozen = false ∧
      ((heading (.strike 0 90) 1100).player 0).awaited = none ∧ (∀ r : PlayerId, r ≠ 0 → (demo.player r).state = .idle) ∧
      ((heading (.strike 0 90) 1100).channel 0).state ≠ .fetching ∧ Awake (heading (.roll 0 90 20 30 5) 1101) ∧
      Awake (heading (.move 0 200 0 1) 1100) ∧ ((heading (.move 0 200 0 1) 1100).axis 0).claim = some 0 ∧
      Awake (heading (.waitAxis 0 3) 1000) ∧ Awake (heading (.mark 7) 1000) ∧ Awake (heading .endShow 1001) ∧
      (heading .endShow 1000).store.array = .idle ∧
      Awake (withAxis (heading (.move 0 200 0 1) 1100) fun x => { x with slot := some { move (.player 0) with due := 300000 } }) ∧
      Awake (withAxis (heading (.move 0 200 0 1) 1100) fun x => { x with state := .faulted }) ∧
      Awake (withAxis (heading (.waitAxis 0 3) 1000) fun x => { x with state := .moving, velocity := 50 }) := by decide

/-- Player 0 waits for axis 0. -/
def waiting (r : WaitReason) (q : List FifoCue) : State :=
  (playing .waiting q).modPlayer 0 fun x => { x with reason := some r, awaited := some 0, deadline := some 200000 }

theorem witness_WaitsEnd :
    (waiting .waitAxis []).running = true ∧ ((waiting .waitAxis []).player 0).awaited = some 0 ∧
      ((waiting .waitAxis []).axis 0).state = .idle ∧ ((waiting .waitAxis []).axis 0).slot = none ∧
      (((waiting .await []).modPlayer 0 fun x => { x with awaitOver := true }).player 0).awaitOver = true ∧
      Quiet (withAxis (waiting .waitAxis []) fun x => { x with state := .moving, velocity := 50 }) ∧
      (let s := withAxis (waiting .slot [{ delta := 0, cue := .move 0 200 0 1 }]) fun x =>
         { x with state := .moving, velocity := 50 }
       (s.axis 0).slot = none ∧ (s.axis 0).claim = some 0 ∧ (s.player 0).headDue = 900 ∧
         (s.channel 0).fifo = [{ delta := 0, cue := .move 0 200 0 1 }]) := by decide

/-- A player that waits for a slot goes on waiting while FROZEN, though the slot is empty (R76). -/
theorem test_slot_wait_stands_while_frozen :
    let s := (waiting .slot [{ delta := 0, cue := .move 0 200 0 1 }]).modTime fun t => { t with frozen := true }
    s.time.frozen = true ∧ s.slotWaitOver 0 = false ∧ (s.clearFrozen).slotWaitOver 0 = true := by decide

theorem witness_WaitsEnd_idle :
    let s := waiting .slot [{ delta := 0, cue := .move 0 200 0 1 }]
    s.running = true ∧ s.time.frozen = false ∧ (s.axis 0).state = .idle ∧ (s.axis 0).slot = none ∧ s.todo = Todo.none ∧ s.stage.mode ≠ .halted ∧
      (s.player 0).start + (900 + (s.player 0).waiting) * 100 ≤ s.time.stageTime ∧
      (s.modAxis 0 fun x => { x with slot := some { move (.player 0) with due := 190000 } }).obstacle 0 200 = none := by
  decide

/-- The part with one start queued, an attempt owed or not. -/
def queued (e : StartEntry) (owed : Bool) : State :=
  { (shown.modShows fun b => { b with queue := [e] }) with todo := { Todo.none with attempt := owed } }

theorem witness_StartsAndReleases :
    Quiet (queued { start with expiry := 199999 } false) ∧
      (queued { start with expiry := 199999 } false).shows.queue = [] ++ { start with expiry := 199999 } :: [] ∧
      (queued start true).running = true ∧ (queued start true).todo = { Todo.none with attempt := true } ∧
      (queued start true).live? 0 = some shown.version ∧ ((queued start true).player 0).state = .idle ∧
      (queued start true).stage.mode = .auto ∧
      (∀ a : AxisId, shown.version.axisMask.getLsbD a.val = true → ((queued start true).axis a).claim = none ∧
        ((queued start true).axis a).state = .idle ∧ ((queued start true).axis a).slot = none) ∧
      (queued { start with programme := 5 } true).live? 5 = none ∧
      ((playing .draining []).player 0).state = .draining ∧ (playing .draining []).todo = Todo.none ∧
      (playing .draining []).strikes.queue = [] ∧ (∀ r : RollId, (playing .draining []).roll r = none) ∧
      (∀ a : AxisId, ((playing .draining []).axis a).slotOf 0 = false ∧ ((playing .draining []).axis a).inMotion = false) ∧
      (playing .draining []).store.path = none := by decide

/-- Programme 2 live, needing axis 0, with a start of it queued beside a state's players. -/
def wanting (s : State) (priority : Nat) : State :=
  { (s.modDir 1 fun _ => { live := some { shown.version with firstPage := 20 }, retiring := none }).modShows (fun b =>
      { b with queue := [{ start with programme := 1, priority := priority }] }) with
    todo := { Todo.none with attempt := true } }

theorem witness_StartsAndReleases_preempted :
    let s := wanting (playing .running []) 6
    s.running = true ∧ s.live? 1 = some { shown.version with firstPage := 20 } ∧ shown.version.axisMask.getLsbD 0 = true ∧
      (s.axis 0).claim = some 0 ∧ (s.player 0).state = .running ∧ (s.player 0).priority = 4 ∧
      (∀ q : PlayerId, q ≠ 0 → (s.player q).state = .idle) ∧ s.stage.mode = .auto ∧ s.time.stageTime ≤ start.expiry ∧
      (wanting (playing .running []) 4).running = true ∧ (∀ a : AxisId, (s.axis a).slot = none) := by decide

theorem witness_StartsAndReleases_homing :
    let s := wanting (demo.modAxis 0 fun x => { x with state := .unhomed, positionValid := false }) 4
    s.running = true ∧ (s.axis 0).state = .unhomed ∧ (s.axis 0).claim = none ∧ s.stage.mode = .auto ∧
      s.store.setup.autoHome = true ∧ s.homingObstacle 0 = none ∧
      (∀ b : AxisId, b ≠ 0 → shown.version.axisMask.getLsbD b.val = false) := by decide

/-! ### Witnesses: events of the strikes, the hammers and the axes -/

/-- A roll of bell 0 whose next strike sounds at a stage time. -/
def rolling (sound remaining : Nat) : State :=
  demo.setRoll 0 (some { owner := 0, bell := 0, velocity := 100, intervalA := 10, intervalB := 20, next := .b,
                         nextSound := sound, remaining := remaining })

/-- One strike queued, with mute as said. -/
def muted (launch : Nat) (m : Bool) : State :=
  (withStrikes demo [strike launch none]).modBackup fun b => { b with mute := m }

theorem witness_StrikeEventsTakeTheirEntry :
    Awake (muted 194999 true) ∧ (muted 194999 true).strikes.queue = [] ++ strike 194999 none :: [] ∧
      (strike 194999 none).latest < (muted 194999 true).time.stageTime ∧ Awake (muted 200000 true) ∧
      (strike 200000 none).launch ≤ (muted 200000 true).time.stageTime ∧ (muted 200000 false).running = true ∧
      (strike 200000 none).latest = 205000 ∧ ((muted 200000 false).hammerOf 0).state = .rest ∧
      (muted 200000 false).hammer.slots[0]? = some none ∧ Awake demo ∧ demo.backup.mute = false ∧
      Awake (rolling 180000 3) ∧ 180000 + 20 * 1000 ≤ demo.time.stageTime + 10000 ∧ Awake (rolling 210001 3) ∧ Awake (rolling 210000 1) ∧ Awake (rolling 210000 2) ∧
      demo.time.stageTime + 10000 < 210000 + 20 * 1000 := by decide

theorem witness_HammerEvents :
    Awake (withHammer (.driving 199700 300 2)) ∧ Awake (withHammer (.driving 199701 300 2)) ∧
      Awake (withHammer (.recovering 199000 300 200000)) ∧ Awake (withHammer (.flight 199600 300)) ∧
      (demo.bell 0).contactPolarity = .known .activeHigh ∧ demo.pins.contact[0] = .low ∧
      ((withHammer (.flight 199600 300)).hammerOf 0).state = .flight 199600 300 ∧
      Awake (withHammer (.flight 196700 300)) ∧ ((withHammer (.flight 196700 300)).bell 0).misses < 2 ∧
      Awake ((withHammer (.flight 196700 300)).modBell 0 fun x => { x with misses := 2 }) := by decide

theorem witness_PendingMovesStartOrWait :
    let s := withAxis manual fun x => { x with slot := some (move .service) }
    Awake s ∧ (s.axis 0).slot = some (move .service) ∧ (s.axis 0).state = .idle ∧ (s.axis 0).claim = none ∧
      s.stage.mode = .manual ∧ s.obstacle 0 200 = none ∧ (s.axis 0).position ≠ 200 ∧
      (let g := guarded (s.modAxis 1 fun x => { x with position := 90 }); Awake g ∧ g.obstacle 0 200 = some 2) ∧
      Awake (withAxis s fun x => { x with position := 200 }) ∧
      Awake (withAxis s fun x => { x with slot := some { move .service with due := 200001 } }) ∧
      (let h := withAxis demo fun x => { x with slot := some { move .service with held := some 0 } }
       Awake h ∧ h.time.stageTime < 0 + h.store.setup.holdTimeout * 100000) ∧
      Awake ((withAxis demo fun x => { x with slot := some { move .service with held := some 0 } }).modTime fun t =>
        { t with stageTime := 3000000 }) := by decide

/-- Axis 0 homing in a phase. -/
def homing (ph : HomingPhase) (travel : Nat) : State :=
  withAxis demo fun x =>
    { x with state := .homing, positionValid := false,
             homing := some { phase := ph, travel := travel, origin := .homeAxis } }

theorem witness_HomeSwitchEvents :
    Awake demo ∧ demo.pins.switch[0] = .low ∧ Awake (homing .search 500) ∧ ((homing .search 500).axis 0).slot = none ∧
      ((homing .search 500).axis 0).config.made .high = true ∧
      Awake { homing .backoff 20 with pins := { demo.pins with switch := demo.pins.switch.set 0 .high } } ∧
      (demo.axis 0).config.made .low = false ∧
      Awake (withAxis demo fun x => { x with lastStep := some (4, 5) }) ∧
      Awake (withAxis demo fun x => { x with lastStep := some (90, 91), state := .moving, velocity := 50 }) ∧
      Awake (homing .search 2999) ∧ Awake (homing .search 3000) ∧
      ((homing .search 3000).axis 0).config.searchTravel = 3000 ∧ ((homing .search 3000).axis 0).pulse = false := by decide

/-! ### Witnesses: events of the store -/

/-- Channel 0 asks for a block, or waits for the store. -/
def asking (st : ChannelState) (r : ReadState) (n : Nat) (a : ArrayActivity) : State :=
  ((playing .running (List.replicate n { delta := 0, cue := .mark 5 })).modChannel 0 fun c =>
    { c with state := st, read := r, cueCount := 40 }).modStore fun x => { x with array := a }

theorem witness_ReadsAreGrantedInOrder :
    (asking .waitingStore .none 4 .idle).running = true ∧
      ((asking .waitingStore .none 4 .idle).channel 0).state = .waitingStore ∧
      (asking .waitingStore .none 4 (.suspended 700)).store.array = .suspended 700 ∧
      ((asking .waitingStore .none 4 (.erasing 700)).channel 0).fifo.length ≤ 4 ∧
      4 < ((asking .waitingStore .none 5 (.erasing 700)).channel 0).fifo.length ∧
      (asking .waitingStore .none 4 (.programming 300)).store.array = .programming 300 ∧
      ((asking .fetching .queued 8 .idle).channel 0).read = .queued ∧
      (asking .fetching .queued 8 .idle).store.path = none ∧ (asking .fetching .queued 8 .idle).store.waiting = none ∧
      (∀ p : PlayerId, (demo.channel p).read ≠ .queued) ∧ demo.store.array = .idle ∧
      (working (.erasePage 8) (.suspended 700)).store.array = .suspended 700 := by decide

/-- A channel that waits for the store at fill 5 during an erase asks for the suspend at the dispatch that brings it to 4
(R67). -/
theorem test_dispatch_ends_a_store_wait :
    let t := (asking .waitingStore .none 5 (.erasing 700)).popCue 0
    (t.channel 0).state = .fetching ∧ (t.channel 0).read = .queued ∧ (t.channel 0).asking = true ∧
      t.store.array = .suspended 700 := by decide

theorem witness_ReadsAreGrantedInOrder_dispatch :
    ((asking .fetching .none 8 .idle).channel 0).fifo.length ≤ 8 ∧ (asking .fetching .none 8 (.erasing 7)).running = true ∧
      4 < ((asking .fetching .none 5 (.erasing 7)).channel 0).fifo.length ∧
      ((asking .waitingStore .none 4 (.erasing 7)).channel 0).fifo.length ≤ 4 ∧
      ((asking .fetching .none 5 (.programming 7)).channel 0).state = .fetching ∧
      ((asking .fetching .none 9 .idle).channel 0).fifo.length = 9 := by decide

/-- A read in flight is over. -/
def readOver (s : State) (w : Requester) : State :=
  s.modStore fun x => { x with path := some { who := w, left := 0, page := 3, offset := 0, length := 8 } }

theorem witness_ReadsAndPhasesEnd :
    Awake (readOver demo (.port .venue)) ∧ (readOver demo (.port .venue)).store.waiting = none ∧
      Awake (readOver demo (.channel 2)) ∧ ((readOver demo (.channel 2)).channel 2).read ≠ .inFlight ∧
      Awake (readOver (asking .fetching .inFlight 8 .idle) (.channel 0)) ∧
      Awake (working (.erasePage 511) (.erasing 0)) ∧ Awake (working (.writeSetup []) (.erasing 0)) ∧
      (OpBody.writeSetup []).page < 512 ∧ Awake (working (.writePage 8) (.programming 0)) ∧
      (working (.writePage 8) (.programming 0)).store.nvm.cut[8] = none := by decide

/-- The read of channel 0's next block is over, its script from page 8 on holding these cells. -/
def blockOver (next cues : Nat) (cells : List Host.Cell) (loops : List LoopEntry) : State :=
  readOver (((asking .fetching .inFlight 0 .idle).modStore fun x => { x with nvm := { x.nvm with cells := cells } }).modChannel
    0 fun c => { c with next := next, cueCount := cues, loops := loops }) (.channel 0)

/-- The block of one record that a part would take. -/
def oneRecord (s : State) : List Record := recordsFrom s.store.nvm 8 (s.channel 0).next (s.channel 0).blockLength

/-- The eight bytes of record 0 of page 8: its kind, its delta and its first field, the rest 0. -/
def record0 (kind delta field : Byte) : List Host.Cell :=
  [(4128, kind), (4129, delta), (4130, 0#8), (4131, field), (4132, 0#8), (4133, 0#8), (4134, 0#8), (4135, 0#8)]

theorem witness_ReadsAndPhasesEnd_block :
    oneRecord (blockOver 0 1 (record0 8 7 0) []) = [.play 7 .endShow] ∧ Awake (blockOver 0 1 (record0 8 7 0) []) ∧
      oneRecord (blockOver 0 1 (record0 9 7 0) []) = [.noKind] ∧
      (oneRecord (blockOver 0 9 (record0 6 0 3) [])).head? = some (.loopBegin 0 3) ∧
      (oneRecord (blockOver 0 9 (record0 7 0 0) [⟨1, 2⟩])).head? = some (.loopEnd 0) ∧
      (oneRecord (blockOver 0 9 (record0 5 2 1) [])).head? = some (.play 2 (.mark 1)) ∧
      ((blockOver 0 9 [] []).channel 0).blockLength = 8 ∧ ((blockOver 0 9 [] []).channel 0).read = .inFlight := by decide

/-! ### Witnesses: searches and arithmetic -/

/-- Calendar entry 0 asks for programme 1 every minute; its last-handled stamp is as said, and so is its silent policy. -/
def timed (s : State) (last : Option Nat) (silent : SilentPolicy) : State :=
  (s.modCalendar fun c => { c with entries := c.entries.set 0 entry }).modBackup fun b =>
    { b with stamps := b.stamps.set 0 last }
where
  entry : CalendarEntry :=
    { CalendarEntry.blank with enabled := true, programme := 1, kind := .interval, interval := 1, windowFirst := 0,
                               windowLast := 1439, weekdays := 0x7F#8, seasons := 0xFFFF#16, priority := 4, silent := silent }

theorem witness_TheLatestStampIsFound :
    (demo.calendar.entries[(0 : CalId)]).enabled = false ∧
      ((timed shown none .play).calendar.entries[(0 : CalId)]).enabled = true ∧
      (timed shown none .play).backup.stamps[(0 : CalId)] = none ∧ (timed shown none .play).backup.validity = .valid ∧
      (timed shown (some 1) .skip).backup.stamps[(0 : CalId)] = some 1 ∧ shown.stage.mode = .auto ∧
      (timed.entry .play).latestMatch shown.calendar.seasons (1 + 1) 119999 = none ∧
      (timed.entry .play).latestMatch shown.calendar.seasons (1 + 1) 120000 = some 2 ∧
      ProgId.number 0 = 1 ∧ shown.live? 0 = some shown.version ∧ demo.live? 0 = none ∧
      120000 - 2 * 60000 ≤ shown.version.latestStart * 1000 ∧ shown.version.latestStart * 1000 < 180001 - 2 * 60000 ∧
      shown.shows.queue.length < 8 ∧ manual.stage.mode ≠ .auto ∧
      Awake (crossing 119999 1) ∧ (crossing 119999 1).store.ready = true ∧ 0 < (crossing 119999 1).backup.boundaryAhead := by
  decide

/-! ### Witnesses: arithmetic -/

theorem witness_TheInterlockCheck :
    (guarded demo).homingObstacle 0 = none ∧
      (withAxis (guarded demo) fun x => { x with positionValid := false, state := .unhomed }).homingObstacle 1 = some 2 ∧
      (guarded (demo.modAxis 1 fun x => { x with positionValid := false })).homingObstacle 0 = some 2 := by decide

theorem witness_MotionTickArithmetic :
    let x := { demo.figure with state := .moving, velocity := 40, profile := { maxSpeed := 50, acceleration := 10,
                                                                               deceleration := 10 } }
    x.state = .moving ∧ x.velocity ≤ x.profile.maxSpeed ∧ x.speedRemainder < 1000 := by decide

theorem witness_DriveTimesFollowTheVelocity :
    (demo.bell 0).driveMin ≤ (demo.bell 0).driveMax ∧ (demo.bell 0).driveMax ≤ 2000 := by decide

/-! ### Witnesses: the clauses on one axis, one offer, one block -/

/-- Axis 0 of a homed part moves up from a position, the last of its two steps due, with an end and a passage. -/
def stepping (x : Int) (e : BurstEnd) (q : Option Passage) : State :=
  withAxis demo fun y =>
    { y with state := .moving, position := x, positionValid := true, velocity := 500, direction := .positive, passage := q,
             burst := some { total := 2, issued := 1, spacing := 50, ends := e } }

theorem witness_TickRunsTheTimebase_axis :
    let c := (demo.axis 0).config
    let x := (stepping (c.home - 1) .arrive none).axis 0
    x.burst = some { total := 2, issued := 1, spacing := 50, ends := .arrive } ∧ x.slipDue = false ∧ x.slot = none ∧
      1 * 100 / 50 ≤ ((stepping (c.home - 1) .arrive none).modTime fun t => { t with motionPhase := 2 }).time.motionPhase ∧
      ((stepping (c.home - 1) .arrive none).modTime fun t => { t with motionPhase := 1 }).time.motionPhase < 1 * 100 / 50 ∧
      (∀ e ∈ [BurstEnd.none, .arrive, .complete, .limit], ((stepping c.home e none).axis 0).burst.any (fun b => b.ends == e) = true) ∧
      ((stepping (c.home + c.slipTolerance) .none (some { side := .low, edgeSeen := false })).axis 0).passage ≠ none ∧
      ¬ (c.home + c.slipTolerance + 1 ≤ c.home + c.slipTolerance) := by decide

theorem witness_TickRunsTheTimebase_noStep :
    ∀ e ∈ [BurstEnd.none, .arrive, .complete, .limit],
      let x := (withAxis (stepping 0 e none) fun y =>
        { y with burst := some { total := 0, issued := 0, spacing := 0, ends := e }
                 stop := some { kind := .emergency, cause := .halt } }).axis 0
      x.burst = some { total := 0, issued := 0, spacing := 0, ends := e } ∧ x.slipDue = false ∧ x.slot = none ∧
        x.positionValid = true ∧ x.stop = some { kind := .emergency, cause := .halt } := by decide

theorem witness_TickRunsTheTimebase_slip :
    let x := (withAxis (stepping 0 .none none) fun y => { y with slipDue := true }).axis 0
    x.slipDue = true ∧ x.state = .moving ∧ x.velocity ≠ 0 ∧ x.slot = none := by decide

theorem witness_StopShowAborts_moving :
    let s (v : Nat) := withAxis (playing .running []) fun x => { x with state := .moving, velocity := v, claim := some 0 }
    (∀ v ∈ [0, 500], Accepts (s v) .venue ∧ ((s v).player 0).playing = true ∧ ((s v).axis 0).claim = some 0 ∧
      ((s v).axis 0).velocity = v ∧ ((s v).axis 0).slot = none) := by decide

theorem witness_SetClockSlews_nothing :
    let s := demo.modBackup fun b => { b with slewRemainder := 1, slewElapsed := 10000 }
    Accepts s .venue ∧ requestedWall? (clock 0#8 1#8 0#8 0#16) = some s.backup.wallMs ∧ s.backup.validity = .valid ∧
      (s.backup.wallMs + 1) / 60000 = s.backup.wallMs / 60000 := by decide

theorem witness_ShowAndMotionTicks_players :
    let s := playing .running [{ delta := 0, cue := .mark 5 }, { delta := 3, cue := .strike 0 90 }]
    (s.channel 0).fifo = { delta := 0, cue := .mark 5 } :: [{ delta := 3, cue := .strike 0 90 }] ∧
      (s.player 0).state = .running ∧ (s.player 0).awaited = none ∧ (s.player 0).headDue ≤ (s.player 0).showTime ∧
      ((playing .waiting []).channel 0).fifo = [] ∧ (s.axis 0).claim = some 0 := by decide

theorem witness_StrikeEventsTakeTheirEntry_offer :
    let s := withStrikes demo [strike 200000 none]
    let figures := demo.strikeFigures 0 90
    (s.bell 0).state = .inService ∧ (∀ x ∈ demo.strikes.queue, x.bell ≠ 0) ∧
      s.strikes.queue = [] ++ strike 200000 none :: [] ∧ (strike 200000 none).bell = 0 ∧
      s.readyTime 0 = some 200900 ∧ demo.readyTime 0 = none ∧ demo.strikes.queue.length < 32 ∧
      (200000 : Int) - (194999 : Int) = 5001 ∧ s.time.stageTime = 200000 ∧
      200000 ≤ (200000 + figures.2 + (s.bell 0).flight : Int) - (figures.2 + (s.bell 0).flight : Nat) := by decide

theorem witness_StrikeEventsTakeTheirEntry_roll :
    (demo.bell 0).state = .inService ∧ 23 < 24 ∧
      ((rolling 300000 3).roll 0).any (fun y => y.bell == 0) = true ∧ demo.roll 0 = none ∧
      (∀ r : RollId, (demo.roll r).any (fun y => y.bell == 0) ≠ true) ∧
      (let full := allRolls.foldl (fun u r => u.setRoll r (((rolling 300000 3).roll 0).map fun x => { x with bell := 1 })) demo
       ∀ r : RollId, full.roll r ≠ none ∧ (full.roll r).any (fun y => y.bell == 0) ≠ true) := by decide

/-- The first two records of page 8's script: a MARK, then a kind with its first field. -/
def markThen (kind field : Byte) : List Host.Cell :=
  record0 5 0 1 ++ [(4136, kind), (4137, 0#8), (4138, 0#8), (4139, field), (4140, 0#8), (4141, 0#8), (4142, 0#8), (4143, 0#8)]

theorem witness_ReadsAndPhasesEnd_mixed :
    (oneRecord (blockOver 0 9 (markThen 6 3) [])).take 2 = [.play 0 (.mark 1), .loopBegin 0 3] ∧
      (oneRecord (blockOver 0 9 (markThen 7 0) [⟨1, 0⟩])).take 2 = [.play 0 (.mark 1), .loopEnd 0] ∧
      (oneRecord (blockOver 0 9 (markThen 9 0) [])).take 2 = [.play 0 (.mark 1), .noKind] ∧
      Awake (blockOver 0 9 (markThen 9 0) []) := by decide

/-- Two loops within one block: the inner one is popped, the outer one stays (R70, R71). -/
theorem test_loops_in_a_block :
    let c := ((blockOver 0 9 [] []).channel 0)
    let r := takeRecords [.loopBegin 0 2, .loopBegin 0 1, .play 1 (.mark 4), .loopEnd 0, .play 2 (.mark 5)] c
    r.1.loops = [{ returnIndex := 1, passesLeft := 1 }] ∧ r.1.next = 5 ∧ r.2 = none ∧
      r.1.fifo = [{ delta := 1, cue := .mark 4 }, { delta := 2, cue := .mark 5 }] := by decide

/-- A season table with a summer and a winter that wraps the year end. -/
def seasonTable : Vector SeasonEntry 16 :=
  ((Vector.replicate 16 SeasonEntry.blank).set 0
    { enabled := true, startMonth := 6, startDay := 1, endMonth := 8, endDay := 31, seasonId := 1, rank := 0 }).set 1
    { enabled := true, startMonth := 12, startDay := 1, endMonth := 2, endDay := 29, seasonId := 2, rank := 3 }

theorem witness_TheLatestStampIsFound_seasons :
    (seasonTable[(0 : SeasonId)]).covers { year := 2000, month := 8, day := 31 } = true ∧
      (seasonTable[(1 : SeasonId)]).covers { year := 2000, month := 2, day := 29 } = true ∧
      (∀ k : SeasonId, (seasonTable[k]).covers { year := 2000, month := 9, day := 1 } = false) ∧
      (∀ j : SeasonId, (seasonTable[j]).covers { year := 2000, month := 2, day := 29 } = true → (1 : SeasonId) ≤ j) ∧
      (∀ k : SeasonId, (seasonTable[k]).startDay ≤ 31 ∧ (seasonTable[k]).endDay ≤ 31) := by decide

theorem witness_MotionTickArithmetic_stops :
    let x (k : StopKind) := { demo.figure with state := .stopping, velocity := 40, stop := some { kind := k, cause := .abort } }
    let h := { demo.figure with state := .homing, homing := some { phase := .search, travel := 0, origin := .homeAxis } }
    (∀ k ∈ [StopKind.controlled, .emergency], (x k).stop = some { kind := k, cause := .abort } ∧ (x k).speedRemainder < 1000) ∧
      h.homing = some { phase := .search, travel := 0, origin := .homeAxis } := by decide

/-! ### Readouts, fault flags and the clock between ticks -/

/-- 0x1234 in two bytes and −2 in two's complement, little-endian (R195). -/
theorem test_reads : reads [0x34#8, 0x12#8, 0xFE#8, 0xFF#8] [.num 2 0x1234, .signed 2 (-2)] = true ∧
    reads [0x12#8, 0x34#8] [.num 2 0x1234] = false ∧ reads [0#8, 0xFF#8, 0xFF#8] (optionally 2 none) = true ∧
    reads [1#8, 7#8, 0#8] (optionally 2 (some [.num 2 7])) = true := by decide

/-- 2000-01-01 00:01:00.000 in nine bytes: 2000 is 0x07D0 (R195). -/
theorem test_wall_time : wallBytes 60000 = [0xD0#8, 7#8, 1#8, 1#8, 0#8, 1#8, 0#8, 0#8, 0#8] := by decide

/-- A stored calendar entry with programme 65 is disabled and keeps its fields (R32). -/
theorem test_stored_calendar_out_of_range :
    let e := storedCalendar [0x51#8, 65#8, 20#8, 30#8, 0#8, 0#8, 0#8, 0#8, 0#8, 0#8, 0#8, 0#8, 0x7F#8, 1#8, 0#8]
    e.enabled = false ∧ e.programme = 65 ∧ e.hour = 20 ∧ e.minute = 30 ∧ e.priority = 5 ∧ e.weekdays = 0x7F#8 := by decide

/-- The fault flags stay through a main reset and clear as LOADING begins (R180). -/
theorem test_fault_flags :
    (match exec (.resetPart .service) (demo.modStore fun x => { x with dirFault := true }) with
      | .next t => t.store.dirFault && !t.store.tableFault && !t.store.ready
      | _ => false) = true ∧
    (match exec .stabilisationEnd (waking.modStore fun x => { x with setupFault := true, dirFault := true }) with
      | .next t => !t.store.setupFault && !t.store.dirFault && t.store.load == .reading 0 0
      | _ => false) = true := by decide

/-- The clock at the end of a minute, and in a slew's last two milliseconds. -/
def clockAt (ms sub : Nat) (r : Int) (e : Nat) : Backup :=
  { demo.backup with wallMs := ms, wallSub := sub, slewRemainder := r, slewElapsed := e }

theorem witness_TickRunsTheTimebase_clock :
    (clockAt 60000 98 0 0).slewRemainder = 0 ∧ (clockAt 60000 98 0 0).wallSub < 99 ∧ 99 ≤ (clockAt 60000 99 0 0).wallSub ∧
      (60000 + 1) / 60000 = 60000 / 60000 ∧ ¬ (59999 + 1) / 60000 = 59999 / 60000 ∧
      (clockAt 60000 0 5 9899).slewRemainder ≠ 0 ∧ (9899 + 1) % 100 = 0 ∧ 9899 + 1 < 10000 ∧ 10000 ≤ 9999 + 1 ∧
      (clockAt 60000 0 (-5) 0).slewElapsed = 0 ∧ (60000 + 99) / 60000 = 60000 / 60000 ∧
      (demo.modStore fun x => { x with array := .suspended 800 }).store.array = .suspended 800 := by decide

theorem test_clock_tick :
    (clockAt 60000 99 0 0).clockTick = clockAt 60001 0 0 0 ∧
      (clockAt 59999 99 0 0).clockTick = { clockAt 59999 0 0 0 with boundaryAhead := 1 } ∧
      (clockAt 60098 99 5 9899).clockTick = clockAt 60099 0 5 9900 ∧
      (clockAt 60099 99 5 9999).clockTick = clockAt 60099 0 5 10000 := by decide

theorem witness_StatusEventsAndRouting_erase :
    (working (.erasePage 8) (.erasing 799)).store.array = .erasing 799 ∧ 799 % 100 ≠ 0 ∧ 799 / 100 + 1 = 8 := by decide

theorem witness_StoreReadouts_ranges : 448 + 64 ≤ 512 ∧ 8 ≤ 448 ∧ 3155759999999 < 3155760000000 := by decide

theorem witness_SetClockSteps_enabled :
    Accepts (timed shown (some 1) .play) .venue ∧ requestedWall? (clock 0#8 5#8 0#8 0#16) = some 300000 ∧
      2000 < ((300000 : Int) - (timed shown (some 1) .play).backup.wallMs).natAbs ∧
      ((timed shown (some 1) .play).calendar.entries[(0 : CalId)]).enabled = true := by decide

/-- LOADING ends, with axes 0 and 1 UNHOMED, axis 1 claimed, and a calendar entry enabled. -/
def ending : State :=
  ((timed (testing 511) (some 0) .play).modAxis 0 fun x => { x with state := .unhomed, positionValid := false }).modAxis 1
    fun x => { x with state := .unhomed, positionValid := false, claim := some 2 }

theorem witness_StabilisationAndBlankTests_ending :
    Quiet ending ∧ ending.running = true ∧ ending.store.load = .testing 511 ∧ ending.store.blankLeft = some 0 ∧
      (∀ q, 511 < q → q < 512 → ending.pageState q = some .live) ∧ ArrayCanonical ending ∧
      ending.store.setup.autoHome = true ∧ ending.stage.mode = .auto ∧ ending.mayHome 0 ∧ ¬ ending.mayHome 1 ∧
      (ending.axis 1).state = .unhomed ∧ (ending.calendar.entries[(0 : CalId)]).enabled = true := by
  refine ⟨by decide, by decide, by decide, by decide, fun q h1 h2 => by omega, by decide⟩

/-- A homing completes while axis 1 is on the start-up list. -/
theorem witness_HomeSwitchEvents_startup :
    let s := ((homing .search 500).modAxis 1 fun x => { x with state := .unhomed }).modStage fun g => { g with startup := [1] }
    Awake s ∧ (s.axis 0).state = .homing ∧ (s.axis 0).config.made .high = true ∧ s.pins.switch[0] = .low ∧ s.mayHome 1 ∧
      (match exec (.switchEdge 0 .high) s with
        | .next t => (t.axis 1).state == .homing && (t.axis 0).state == .idle && t.stage.startup == []
        | _ => false) = true := by decide

/-- The season of the table's entry 0, 1 to 31 January, differs from the season 0 of the demo part; none of a part in season
0 does not. -/
theorem witness_TheLatestStampIsFound_setSeason :
    let winter : SeasonEntry :=
      { enabled := true, startMonth := 1, startDay := 1, endMonth := 1, endDay := 31, seasonId := 7, rank := 0 }
    let s := demo.modCalendar fun c => { c with seasons := c.seasons.set 0 winter }
    (s.calendar.seasons[(0 : SeasonId)]).seasonId ≠ s.calendar.active ∧ demo.calendar.active = 0 ∧
      (s.setSeason (some 0)).calendar.active = 7 ∧ ((s.setSeason (some 0)).port .venue).queue.length = 1 := by decide

end Sys2Proof.Tests
end

