-- ==== Sys2Proof/Proofs/Timebase.lean ====
section
/-! PROOF. The timebase from a backup reset to the end of stabilisation (R5, R7, R18, R19): how the wall clock and the
stabilisation interval run over many ticks, and what the end of the interval reports. -/

namespace Sys2Proof.Machine

/-! ### The wall clock outside a slew (R7) -/

section Clock

variable {b : Backup}

theorem advance_within_minute {k : Nat} (h : (b.wallMs + k) / 60000 = b.wallMs / 60000) :
    b.advance k = { b with wallMs := b.wallMs + k } := if_pos h

/-- A tick of an unslewed clock inside its minute, with the carry of the hundredth into the milliseconds (R7). -/
theorem clockTick_within_minute (hr : b.slewRemainder = 0) (he : b.slewElapsed = 0) (hs : b.wallSub < 100)
    (hm : (b.wallMs + (b.wallSub + 1) / 100) / 60000 = b.wallMs / 60000) :
    b.clockTick = { b with wallMs := b.wallMs + (b.wallSub + 1) / 100, wallSub := (b.wallSub + 1) % 100 } := by
  rw [Backup.clockTick, if_pos hr]
  by_cases hsub : b.wallSub + 1 < 100
  · rw [if_pos hsub, Nat.div_eq_of_lt hsub, Nat.mod_eq_of_lt hsub, he, Nat.add_zero b.wallMs]
  · have hcarry : b.wallSub + 1 = 100 := by omega
    rw [hcarry] at hm ⊢
    rw [if_neg (Nat.lt_irrefl 100), advance_within_minute (b := { b with wallSub := 0, slewElapsed := 0 }) hm, he]

/-- Ticks of an unslewed clock that stay inside its minute gain a millisecond in every hundred (R7). -/
theorem repeat_clockTick_within_minute (hr : b.slewRemainder = 0) (he : b.slewElapsed = 0) (hs : b.wallSub < 100) (n : Nat)
    (hn : (b.wallMs + (b.wallSub + n) / 100) / 60000 = b.wallMs / 60000) :
    Nat.repeat Backup.clockTick n b =
      { b with wallMs := b.wallMs + (b.wallSub + n) / 100, wallSub := (b.wallSub + n) % 100 } := by
  induction n with
  | zero => rw [Nat.add_zero, Nat.div_eq_of_lt hs, Nat.mod_eq_of_lt hs]; rfl
  | succ n ih =>
    have hms : b.wallMs + (b.wallSub + n) / 100 + ((b.wallSub + n) % 100 + 1) / 100 =
        b.wallMs + (b.wallSub + (n + 1)) / 100 := by omega
    have hsub : ((b.wallSub + n) % 100 + 1) % 100 = (b.wallSub + (n + 1)) % 100 := by omega
    rw [Nat.repeat, ih (by omega), clockTick_within_minute]
    · rw [hms, hsub]
    · exact hr
    · exact he
    · exact Nat.mod_lt _ (by decide)
    · simp only [hms]; omega

end Clock

/-! ### The stabilisation interval (R5) -/

section Stabilisation

variable {s : State}

theorem osc_of_stabilising (h : s.stabilising = true) : s.time.osc = .stabilising := by
  simp only [State.stabilising, Bool.and_eq_true, beq_iff_eq] at h
  obtain ⟨⟨hosc, _⟩, _⟩ := h
  exact hosc

theorem running_eq_false_of_stabilising (h : s.stabilising = true) : s.running = false := by
  rw [State.running, osc_of_stabilising h]; rfl

theorem nextFollow_eq_none_of_stabilising (h : s.stabilising = true) : nextFollow s = none := by
  rw [nextFollow, running_eq_false_of_stabilising h]; rfl

theorem stabilised_of_stabilising (h : s.stabilising = true) (hn : Config.stabTicks ≤ s.time.stabElapsed) :
    s.stabilised = true := by
  rw [State.stabilised, Bool.and_eq_true]
  exact ⟨h, decide_eq_true hn⟩

/-- While the oscillator stabilises, 10 µs move its interval and the wall clock, and nothing else. -/
theorem tick_of_stabilising (h : s.stabilising = true) :
    tick s = (s.modBackup Backup.clockTick).modTime fun t => { t with stabElapsed := t.stabElapsed + 1 } := by
  have hrun : (s.modBackup Backup.clockTick).running = false := running_eq_false_of_stabilising h
  have hstab : (s.modBackup Backup.clockTick).stabilising = true := h
  simp [tick, hrun, hstab]

theorem repeat_tick_of_stabilising (h : s.stabilising = true) (n : Nat) :
    Nat.repeat tick n s =
      (s.modBackup (Nat.repeat Backup.clockTick n)).modTime fun t => { t with stabElapsed := t.stabElapsed + n } := by
  induction n with
  | zero => rfl
  | succ n ih =>
    simp only [Nat.repeat, ih]
    exact tick_of_stabilising h

/-- The end of the interval that follows a backup reset offers CLOCK_LOST to every port (R15). -/
theorem port_endStabilisation (h : s.backup.lossToReport = true) (q : PortId) :
    s.endStabilisation.port q = (s.port q).offer (s.record .clockLost none (some 1) none) := by
  simp only [State.endStabilisation, State.modTime_backup, h, if_true]
  exact port_report q ..

theorem endStabilisation_todo : s.endStabilisation.todo = s.todo := by
  simp only [State.endStabilisation, State.modStore_todo]
  split
  · simp only [State.modBackup_todo, State.report_todo, State.modTime_todo]
  · rfl

theorem exec_stabilisationEnd_of_over (h : s.stabilising = true) (hn : Config.stabTicks ≤ s.time.stabElapsed)
    (ht : s.todo = Todo.none) : exec .stabilisationEnd s = .next s.endStabilisation :=
  event_fires_calm (nextFollow_eq_none_of_stabilising h) (stabilised_of_stabilising h hn) (endStabilisation_todo.trans ht)

end Stabilisation

/-! ### From a backup reset on (R18, R19) -/

theorem exec_backupReset {s : State} (h : Quiet s) :
    exec .backupReset s = .next { s with pins := { s.pins with mainPower := true } }.backupReset :=
  event_fires_calm (c := fun _ => true) (f := fun t => State.backupReset { t with pins := { t.pins with mainPower := true } })
    h.1 rfl rfl

/-- The part after the 16 ms of the interval that begins at first power. -/
theorem repeat_tick_reset :
    Nat.repeat tick 1600 State.reset =
      (State.reset.modBackup fun b => { b with wallMs := 16 }).modTime fun t => { t with stabElapsed := 1600 } := by
  have hclock : Nat.repeat Backup.clockTick 1600 State.reset.backup = { State.reset.backup with wallMs := 16 } :=
    repeat_clockTick_within_minute rfl rfl (by decide) _ (by decide)
  rw [repeat_tick_of_stabilising rfl, State.modBackup, hclock]
  simp only [State.modTime, State.modBackup, State.reset, Time.initial, Nat.zero_add]

/-- The end of the first interval leaves CLOCK_LOST, cause 1, alone in the venue port's queue: stamped with no wall time,
the clock being INVALID, and with stage time 0 (R15, R190). -/
theorem exec_stabilisationEnd_after_reset :
    ∃ t, exec .stabilisationEnd (Nat.repeat tick 1600 State.reset) = .next t ∧
      (t.port .venue).queue =
        [{ kind := .clockLost, wall := none, stage := 0, subject := none, detail1 := some 1, detail2 := none }] := by
  rw [repeat_tick_reset]
  refine ⟨_, exec_stabilisationEnd_of_over rfl (Nat.le_refl _) rfl, ?_⟩
  rw [port_endStabilisation rfl]
  rfl

/-- Settles O5: the table of R18 and the values of R19 by evaluation, the backup reset by `exec_backupReset`, and the first
16 ms by running the clock and the stabilisation interval in closed form. -/
theorem resetSetsTheTimebase : Obligations.ResetSetsTheTimebase := by
  unfold Obligations.ResetSetsTheTimebase
  refine ⟨by decide, by decide, rfl, rfl, fun k => Vector.getElem_replicate .., rfl, rfl, rfl, rfl, rfl, rfl, rfl,
    fun s hquiet => ⟨_, exec_backupReset hquiet, rfl, rfl⟩, ?_, exec_stabilisationEnd_after_reset⟩
  exact congrArg (·.backup.wallMs) repeat_tick_reset

end Sys2Proof.Machine
end

section
/-! PROOF. The launch computation of an offer (R82 to R85): each stage is monotone, the supply correction is a rounding with
halves up and falls as the supply rises, and the last stage keeps the drive time within the bell's own range. -/

namespace Sys2Proof.Machine

/-! ### The stages of the computation -/

/-- A clamp keeps the order of what it clamps; the velocity of a cue, the supply reading and the drive time each pass one. -/
theorem clamp_mono (lo hi : Nat) {m n : Nat} (h : m ≤ n) : max lo (min m hi) ≤ max lo (min n hi) := by
  omega

theorem cueVelocity_mono {v w : Nat} (h : v ≤ w) : cueVelocity v ≤ cueVelocity w := clamp_mono 1 127 h

/-- The cap and the ceiling keep the order of two velocities (R82). -/
theorem effectiveVelocity_mono {v w : Nat} (cap ceiling : Nat) (h : v ≤ w) :
    effectiveVelocity v cap ceiling ≤ effectiveVelocity w cap ceiling := by
  unfold effectiveVelocity
  omega

/-- The line of R83 does not fall. -/
theorem nominalDrive_mono (b : Bell) {ve vf : Nat} (h : ve ≤ vf) : nominalDrive b ve ≤ nominalDrive b vf := by
  have hline : (b.driveMax - b.driveMin) * (ve - 1) ≤ (b.driveMax - b.driveMin) * (vf - 1) :=
    Nat.mul_le_mul_left _ (Nat.sub_le_sub_right h 1)
  unfold nominalDrive
  omega

theorem supplyUsed_mono {r u : Nat} (h : r ≤ u) : supplyUsed r ≤ supplyUsed u := clamp_mono 200 280 h

theorem supplyUsed_pos (u : Nat) : 0 < supplyUsed u :=
  Nat.lt_of_lt_of_le (by decide : 0 < 200) (Nat.le_max_left ..)

/-- The supply correction rounds to the nearest tick with halves up (R84): it exceeds `n` when `d0 * 240 / u` is at least
`n + 1/2`. -/
theorem lt_correctedDrive_iff {d0 u n : Nat} (hu : 0 < u) :
    n < correctedDrive d0 u ↔ (2 * n + 1) * u ≤ 2 * (d0 * 240) := by
  have hdiv : n < correctedDrive d0 u ↔ (n + 1) * u ≤ d0 * 240 + u / 2 := Nat.le_div_iff_mul_le hu
  have hsucc : (n + 1) * u = n * u + u := Nat.succ_mul n u
  have htwice : (2 * n + 1) * u = 2 * (n * u) + u := by rw [Nat.succ_mul, Nat.mul_assoc]
  omega

theorem correctedDrive_mono {d e : Nat} (u : Nat) (h : d ≤ e) : correctedDrive d u ≤ correctedDrive e u :=
  Nat.div_le_div_right (Nat.add_le_add_right (Nat.mul_le_mul_right 240 h) _)

/-- A lower supply lengthens the drive: the rounding keeps the order of the quotients it rounds. -/
theorem correctedDrive_antitone (d0 : Nat) {r u : Nat} (hr : 0 < r) (h : r ≤ u) :
    correctedDrive d0 u ≤ correctedDrive d0 r := by
  have hpass : ∀ n, n < correctedDrive d0 u → n < correctedDrive d0 r := fun n hn =>
    (lt_correctedDrive_iff hr).2 <|
      calc (2 * n + 1) * r ≤ (2 * n + 1) * u := Nat.mul_le_mul_left _ h
        _ ≤ 2 * (d0 * 240) := (lt_correctedDrive_iff (Nat.lt_of_lt_of_le hr h)).1 hn
  exact Nat.not_lt.1 fun hlt => Nat.lt_irrefl _ (hpass _ hlt)

theorem clampDrive_mono (b : Bell) {d e : Nat} (h : d ≤ e) : clampDrive b d ≤ clampDrive b e :=
  clamp_mono b.driveMin b.ceiling h

theorem driveMin_le_clampDrive (b : Bell) (d : Nat) : b.driveMin ≤ clampDrive b d := Nat.le_max_left ..

/-- The least drive time of a bell whose times lie as R77 orders them is no more than its drive ceiling. -/
theorem driveMin_le_ceiling {b : Bell} (hle : b.driveMin ≤ b.driveMax) (hmax : b.driveMax ≤ 2000) :
    b.driveMin ≤ b.ceiling :=
  Nat.le_min_of_le_of_le (Nat.le_trans hle hmax) (Nat.le_trans hle (Nat.le_add_right ..))

theorem clampDrive_le_ceiling {b : Bell} (hle : b.driveMin ≤ b.driveMax) (hmax : b.driveMax ≤ 2000) (d : Nat) :
    clampDrive b d ≤ b.ceiling :=
  Nat.max_le_of_le_of_le (driveMin_le_ceiling hle hmax) (Nat.min_le_right ..)

/-! ### The figures of an offer -/

section Figures

variable (s : State) (b : BellId)

/-- A higher cue velocity never gives a shorter drive. -/
theorem strikeFigures_drive_mono {v w : Nat} (h : v ≤ w) : (s.strikeFigures b v).2 ≤ (s.strikeFigures b w).2 := by
  have hve := effectiveVelocity_mono (s.bell b).velocityCap s.backup.ceiling (cueVelocity_mono h)
  exact clampDrive_mono _ (correctedDrive_mono _ (nominalDrive_mono _ hve))

/-- A lower supply reading never gives a shorter drive. -/
theorem strikeFigures_drive_of_supply_le (v : Nat) {r : Nat} (h : r ≤ s.hammer.uRaw) :
    (s.strikeFigures b v).2 ≤ ((s.modHammerDrive fun x => { x with uRaw := r }).strikeFigures b v).2 :=
  clampDrive_mono _ (correctedDrive_antitone _ (supplyUsed_pos r) (supplyUsed_mono h))

end Figures

/-- Settles O60: the figures are the stages composed, the bounds are those of the last stage, and each order is kept stage
by stage. -/
theorem driveTimesFollowTheVelocity : Obligations.DriveTimesFollowTheVelocity := by
  intro b v s bell hle hmax ve d0 u
  exact ⟨rfl, driveMin_le_clampDrive _ _, clampDrive_le_ceiling hle hmax _, fun _ => strikeFigures_drive_mono s b,
    fun _ => strikeFigures_drive_of_supply_le s b v⟩

end Sys2Proof.Machine
end
